-- ==== Sys2Proof/Word.lean ====
section
/-! DEFINITION. The machine's words: 32-bit register words (R12, R21), bytes, and byte memories as plain data. -/

namespace Sys2Proof

/-- A 32-bit register word, bit 31 the most significant (R12). -/
abbrev Word := BitVec 32

/-- One byte of a buffer, of the disk image, of the ROM or of host memory. -/
abbrev Byte := BitVec 8

/-- A byte memory: (address, byte) pairs, addresses strictly rising, no pair that holds the byte an
unlisted address reads as (`Machine.Memory.unlisted`). -/
abbrev Memory := List Host.Cell

end Sys2Proof
end

