-- ==== Sys2Proof/Config.lean ====
section
/-! DEFINITION. What is fixed for the machine: the names the spec fixes, the constants of R9, the data an
attachment brings (R11, R253), and the free values, each an opaque constant nothing can evaluate. The
values of R10's parameters stand in Sys2Proof/Machine/Params.lean, the geometry tables in
Sys2Proof/Machine/Tables.lean. -/

namespace Sys2Proof

/-- The nine MMIO registers of R21. -/
inductive Reg where
  | data | cmdStatus | curTk | bmStatusCtl | curSector | hardReset | hostSecbyte | secByte | idReg
  deriving DecidableEq, Repr

/-- The three disk-format variants of R11 and R120. -/
inductive DiskFormat where
  | flat | lba | direct
  deriving DecidableEq, Repr

/-- An attached disk image with its metadata (R11, R253). -/
structure Disk where
  /-- `disk.size`, the length of `disk.data` in bytes. -/
  size : Nat
  /-- `disk.data`: the bytes at offsets 0 .. size-1. -/
  data : Memory
  format : DiskFormat
  /-- The development flag. -/
  dev : Bool
  /-- Byte offset of the system-data block. -/
  sysOffset : Nat
  /-- Byte offset of the disk-ID block. -/
  idOffset : Nat
  /-- `disk.type`, 0..6 for an `LBA` image. -/
  type : Nat
  /-- `disk.defects[pz]`: track numbers relative to the zone's track start. -/
  defects : Vector (List Nat) 16
  deriving DecidableEq, Repr

/-- The ROM image behind the ROM range (R14, R293); the block never writes it. -/
structure Rom where
  size : Nat
  data : Memory
  deriving DecidableEq, Repr

/-- The calendar fields of R297 in their ranges; month and day are counted from 0 here and from 1 in the
words the commands build (`month1`, `day1`). -/
structure CalendarFields where
  year : Int
  month : Fin 12
  day : Fin 31
  hour : Fin 24
  minute : Fin 60
  /-- 60 is a leap second. -/
  second : Fin 61
  deriving DecidableEq, Repr, Inhabited

/-- Month 1..12. -/
def CalendarFields.month1 (c : CalendarFields) : Nat := c.month.val + 1

/-- Day 1..31. -/
def CalendarFields.day1 (c : CalendarFields) : Nat := c.day.val + 1

/-- The two interrupt sources of R327. -/
inductive IrqSource where
  | mecha | bm
  deriving DecidableEq, Repr

/-- Where a status read samples its value: the three readings R132 allows. -/
inductive SamplePoint where
  | beforeRefresh | afterRefresh | afterStep
  deriving DecidableEq, Repr

/-- The diagnostic codes of R321. -/
inductive DiagCode where
  | addrRead | addrWrite | seekUnresolved | lbaOverflow | imageRange | dmaRange | dmaRomWrite
  | writeOverrun | readOverrun | startSector | bmModeMismatch | hardResetMagic | secbyteMismatch
  | writeUnspec | cmdUnimpl | setDiskType
  deriving DecidableEq, Repr

/-- One record of the diagnostic log (R15, R321). -/
structure Diag where
  code : DiagCode
  info : Word
  deriving DecidableEq, Repr

/-- What an `LBA` image's system data carries and its attachment records (R11, R253): what a read of it answers. -/
structure SystemData where
  type : Fin 7
  defects : Vector (List Nat) 16
  sysOffset : Nat
  idOffset : Nat
  deriving DecidableEq, Repr, Inhabited

/-- The parameters of R10, each under its name there; the value the machine has is `param`. The parameters that R10
leaves abstract are the free values below (`ExpectedHostSecByte`, `ExpectedSecByte`, `DMA_COST`, `Calendar`);
`ROM_SIZE` comes with the ROM image, and `START_BLOCK_PARITY` has no value and no reader (U13, log 42). -/
structure Parameters where
  mmioBase : Nat
  /-- `OFF_<register>`. -/
  regOffset : Reg → Nat
  regWindowSize : Nat
  mseqBase : Nat
  c2BufBase : Nat
  dsBufBase : Nat
  romBase : Nat
  cmdOpLsb : Nat
  cmdDirBit : Nat
  opNoop : BitVec 8
  opSeekRead : BitVec 8
  opSeekWrite : BitVec 8
  opRecalibrate : BitVec 8
  opSleep : BitVec 8
  opStart : BitVec 8
  opClrDskChng : BitVec 8
  opClrReset : BitVec 8
  opReadVersion : BitVec 8
  opSetDiskType : BitVec 8
  opRequestStatus : BitVec 8
  opStandby : BitVec 8
  opIdxLockRetry : BitVec 8
  opSetYearMonth : BitVec 8
  opSetDayHour : BitVec 8
  opSetMinSec : BitVec 8
  opGetYearMonth : BitVec 8
  opGetDayHour : BitVec 8
  opGetMinSec : BitVec 8
  opFeatureInq : BitVec 8
  tkShift : Nat
  tkLock : Word
  tkTrackMask : Word
  tkHeadBit : Nat
  tk6Mask : Word
  /-- `ST_<field>`: bit positions of `CMD_STATUS`. -/
  stDataRq : Nat
  stC2Xfer : Nat
  stBmErr : Nat
  stBmInt : Nat
  stMechaInt : Nat
  stDiskPres : Nat
  stRstState : Nat
  stDiskChng : Nat
  /-- `BMS_<flag>`: bit positions of the status flags of `BM_STATUS_CTL`. -/
  bmsRunning : Nat
  bmsMicro : Nat
  bmsBlock : Nat
  /-- `BMC_<bit>`: bit positions of its control bits. -/
  bmcStart : Nat
  bmcMngrMode : Nat
  bmcReset : Nat
  bmcBlkTrans : Nat
  bmcMechaRst : Nat
  bmcSectorLsb : Nat
  pollResumeMinSector : Nat
  statusSamplePoint : SamplePoint
  hardResetMagic : Word
  hwId : Word
  vzoneLba : List (List Nat)
  vzoneToPzone : List (List Nat)
  secSize16 : List Nat
  secSizePhys : List Nat
  trackBase : List Nat
  trackStart : List Nat
  flatStartOffset : List Nat
  /-- `ZONE_TRACKS`: read by no operation (U13). -/
  zoneTracks : List Nat
  /-- `PHYS_PACK`: the packed physical coordinate. -/
  packTrackMask : Nat
  packHeadBit : Nat
  packBlockBit : Nat
  /-- `SysArea` on a `FLAT` image: the tracks of head 0 below this one. -/
  sysAreaTracks : Nat
  /-- `SysArea` on an `LBA` image: the LBAs below this one. -/
  sysAreaLbas : Nat
  /-- `StructMismatch`, of `SysArea`, the seek's offset, `disk.sys_offset` and `disk.id_offset`. -/
  structMismatch : Bool → Nat → Nat → Nat → Bool
  imgLba0Offset : Nat
  byteLaneXor : Nat

namespace Config

/-! Constants the source fixes (R9). -/

def c2BufSize : Nat := 1024
def dsBufSize : Nat := 256
def mseqRamSize : Nat := 64
def sectorsPerBlock : Nat := 85
def blocksPerTrack : Nat := 2
def numDiskTypes : Nat := 7
def maxLba : Nat := 0x10DB
def c2Sectors : Nat := 4
def gapSector : Nat := 89
def startByteBlock0 : Byte := 0x00
def startByteBlock1 : Byte := 0x5A
def quirkTrack : Word := 6
def lbaNotFound : Nat := 0xFFFF
def byteOverflow : Nat := 0xFFFFFFFF

/-! Free values. The first argument of the first four and of `systemData` is the counter `State.oracle`, advanced at
every draw. -/

/-- `get_time()`: the clock backend's answer (R296). DESIGN CHOICE, safe: log 16. -/
opaque clockAnswer : Nat → Int

/-- `rtc.now` after a `POWERON` (R40, R360: unspecified). Log 14. -/
opaque powerOnNow : Nat → Int

/-- `rtc.last` after a `POWERON` (R40, R360: unspecified). Log 14. -/
opaque powerOnLast : Nat → Int

/-- `Calendar(x)`: the calendar fields of an emulated time, drawn anew at each sample (R297, U9): the first argument
is the draw counter. Log 17. -/
opaque calendar : Nat → Int → CalendarFields

/-- `ExpectedHostSecByte(bm_zone)` (R112). Log 18. -/
opaque expectedHostSecByte : Fin 16 → Word

/-- `ExpectedSecByte(bm_zone)` (R112). Log 18. -/
opaque expectedSecByte : Fin 16 → Word

/-- The type, defect lists and offsets that a `POWERON` reads from an `LBA` image whose system data a sector write
has overwritten (R376; the layout is not in the source, R253). The argument is the draw counter. Log 44. -/
opaque systemData : Nat → SystemData

/-- The ratio K of `DMA_COST` (R294) is `dmaCostNum / (dmaCostDen + 1)`. Log 19. -/
opaque dmaCostNum : Nat

/-- See `dmaCostNum`. -/
opaque dmaCostDen : Nat

/-- How the caller's arithmetic rounds the cost of n bytes where K·n is no whole number: up, or down (R294). Log 19. -/
opaque dmaCostUp : Nat → Bool

end Config

end Sys2Proof
end

