-- ==== Sys2Proof/Machine/Memory.lean ====
section
/-! DEFINITION. Byte memories: reading one byte, writing one byte, copying bytes, and the canonical form. -/

namespace Sys2Proof.Machine

/-- What an address that is not listed reads as. The two buffers are zero at power-on (R37, R38, D18). For host
memory and for an image or a ROM it is a DESIGN CHOICE of the representation (log 12). -/
def Memory.unlisted : Byte := 0

/-- The byte at an address. -/
def Memory.read : Memory → Nat → Byte
  | [], _ => Memory.unlisted
  | (x, v) :: m, a => if a = x then v else Memory.read m a

/-- Put one byte in front of a memory whose addresses are all above it, unless it is the unlisted byte. -/
def Memory.cons (a : Nat) (b : Byte) (m : Memory) : Memory :=
  if b = Memory.unlisted then m else (a, b) :: m

/-- Store one byte, keeping the canonical form. -/
def Memory.write : Memory → Nat → Byte → Memory
  | [], a, b => Memory.cons a b []
  | (x, v) :: m, a, b =>
    if a < x then Memory.cons a b ((x, v) :: m)
    else if a = x then Memory.cons a b m
    else (x, v) :: Memory.write m a b

/-- Store the bytes `src 0 .. src (n-1)` at `dst 0 .. dst (n-1)` in ascending order, so that where two
destinations are equal the later byte stays (R75, R292). -/
def Memory.writeBytes (m : Memory) (dst : Nat → Nat) (src : Nat → Byte) : Nat → Memory
  | 0 => m
  | n + 1 => Memory.write (Memory.writeBytes m dst src n) (dst n) (src n)

/-- The canonical form from an address on: addresses rise strictly, no entry holds the unlisted byte. -/
def Memory.wfFrom : Nat → Memory → Bool
  | _, [] => true
  | lo, (x, v) :: m => decide (lo ≤ x) && decide (v ≠ Memory.unlisted) && Memory.wfFrom (x + 1) m

/-- The canonical form of a memory. -/
def Memory.wf (m : Memory) : Bool := Memory.wfFrom 0 m

/-- Every listed address is below a size. -/
def Memory.below (size : Nat) (m : Memory) : Bool := m.all fun c => decide (c.1 < size)

end Sys2Proof.Machine
end

