-- ==== Sys2Proof/Machine/Tables.lean ====
section
/-! DEFINITION. The geometry tables of R250 to R252. The source gives their sizes and roles and no value; the spec's
values are marked general knowledge (D29, G11): PRESUMED, unsafe, log 10. -/

namespace Sys2Proof.Table

/-- `SEC_SIZE16`, by physical zone (R250). -/
def secSize16 : List Nat :=
  [232, 216, 208, 192, 176, 160, 144, 128, 216, 208, 192, 176, 160, 144, 128, 112]

/-- `SEC_SIZE_PHYS`, by size index (R250, R261). -/
def secSizePhys : List Nat := [232, 216, 208, 192, 176, 160, 144, 128, 112]

/-- `VZONE_TO_PZONE`, by disk type and virtual zone (R251). -/
def vzoneToPzone : List (List Nat) :=
  [[0, 1, 2, 9, 8, 3, 4, 5, 6, 7, 15, 14, 13, 12, 11, 10],
   [0, 1, 2, 3, 10, 9, 8, 4, 5, 6, 7, 15, 14, 13, 12, 11],
   [0, 1, 2, 3, 4, 11, 10, 9, 8, 5, 6, 7, 15, 14, 13, 12],
   [0, 1, 2, 3, 4, 5, 12, 11, 10, 9, 8, 6, 7, 15, 14, 13],
   [0, 1, 2, 3, 4, 5, 6, 13, 12, 11, 10, 9, 8, 7, 15, 14],
   [0, 1, 2, 3, 4, 5, 6, 7, 14, 13, 12, 11, 10, 9, 8, 15],
   [0, 1, 2, 3, 4, 5, 6, 7, 15, 14, 13, 12, 11, 10, 9, 8]]

/-- `VZONE_LBA`, by disk type and virtual zone: the first LBA that is not in zones 0..v (R251). -/
def vzoneLba : List (List Nat) :=
  [[0x124, 0x248, 0x35A, 0x47E, 0x5A2, 0x6B4, 0x7C6, 0x8D8,
    0x9EA, 0xAB6, 0xB82, 0xC94, 0xDA6, 0xEB8, 0xFCA, 0x10DC],
   [0x124, 0x248, 0x35A, 0x46C, 0x57E, 0x6A2, 0x7C6, 0x8D8,
    0x9EA, 0xAFC, 0xBC8, 0xC94, 0xDA6, 0xEB8, 0xFCA, 0x10DC],
   [0x124, 0x248, 0x35A, 0x46C, 0x57E, 0x690, 0x7A2, 0x8C6,
    0x9EA, 0xAFC, 0xC0E, 0xCDA, 0xDA6, 0xEB8, 0xFCA, 0x10DC],
   [0x124, 0x248, 0x35A, 0x46C, 0x57E, 0x690, 0x7A2, 0x8B4,
    0x9C6, 0xAEA, 0xC0E, 0xD20, 0xDEC, 0xEB8, 0xFCA, 0x10DC],
   [0x124, 0x248, 0x35A, 0x46C, 0x57E, 0x690, 0x7A2, 0x8B4,
    0x9C6, 0xAD8, 0xBEA, 0xD0E, 0xE32, 0xEFE, 0xFCA, 0x10DC],
   [0x124, 0x248, 0x35A, 0x46C, 0x57E, 0x690, 0x7A2, 0x86E,
    0x980, 0xA92, 0xBA4, 0xCB6, 0xDC8, 0xEEC, 0x1010, 0x10DC],
   [0x124, 0x248, 0x35A, 0x46C, 0x57E, 0x690, 0x7A2, 0x86E,
    0x93A, 0xA4C, 0xB5E, 0xC70, 0xD82, 0xE94, 0xFB8, 0x10DC]]

/-- `ZONE_TRACKS`, by physical zone (R251): read by no operation, given for the relations between the tables (U13). -/
def zoneTracks : List Nat :=
  [158, 158, 149, 149, 149, 149, 149, 114, 158, 158, 149, 149, 149, 149, 149, 114]

/-- `TRACK_BASE`, by zone in head (R252). -/
def trackBase : List Nat := [0x000, 0x09E, 0x13C, 0x1D1, 0x266, 0x2FB, 0x390, 0x425]

/-- `TRACK_START`, by physical zone (R252). -/
def trackStart : List Nat :=
  [0x000, 0x09E, 0x13C, 0x1D1, 0x266, 0x2FB, 0x390, 0x425,
   0x091, 0x12F, 0x1C4, 0x259, 0x2EE, 0x383, 0x418, 0x48A]

/-- `FLAT_START_OFFSET`, by zone (R252). -/
def flatStartOffset : List Nat :=
  [0x0000000, 0x05F15E0, 0x0B79D00, 0x10801A0, 0x1523720, 0x1963D80, 0x1D414C0, 0x20BBCE0,
   0x23196E0, 0x28A1E00, 0x2DF5DC0, 0x3299340, 0x36D99A0, 0x3AB70E0, 0x3E31900, 0x4149200]

end Sys2Proof.Table
end

