-- ==== Sys2Proof/Machine/Params.lean ====
section
/-! DEFINITION. The machine's parameters: the record of R10 at the spec's defaults. The source gives none of these
values: the spec marks them as general knowledge of the family (G2 to G11, G13), so each is PRESUMED, unsafe (logs 4
to 11), or as its own decision (logs 5, 20, 25, 40, 45). -/

namespace Sys2Proof

/-- The value of every parameter of R10. -/
def param : Parameters where
  -- The address map (R71, R72; D2, D32; log 4).
  mmioBase := 0x05000500
  regOffset
    | .data => 0x00
    | .cmdStatus => 0x08
    | .curTk => 0x0C
    | .bmStatusCtl => 0x10
    | .curSector => 0x1C
    | .hardReset => 0x20
    | .hostSecbyte => 0x28
    | .secByte => 0x30
    | .idReg => 0x40
  regWindowSize := 0x4C
  mseqBase := 0x05000580
  c2BufBase := 0x05000000
  dsBufBase := 0x05000400
  romBase := 0x06000000
  -- Command words: the position of the opcode (the source's upper byte), the opcode numbers (R103; D7 to D9; log 5).
  cmdOpLsb := 24
  cmdDirBit := 25
  opNoop := 0x00
  opSeekRead := 0x01
  opSeekWrite := 0x02
  opRecalibrate := 0x03
  opSleep := 0x04
  opStart := 0x05
  opClrDskChng := 0x08
  opClrReset := 0x09
  opReadVersion := 0x0A
  opSetDiskType := 0x0B
  opRequestStatus := 0x0C
  opStandby := 0x0D
  opIdxLockRetry := 0x0E
  opSetYearMonth := 0x0F
  opSetDayHour := 0x10
  opSetMinSec := 0x11
  opGetYearMonth := 0x12
  opGetDayHour := 0x13
  opGetMinSec := 0x14
  opFeatureInq := 0x1B
  -- The current-track register (R24, R106; D10; log 6).
  tkShift := 16
  tkLock := 0x60000000
  tkTrackMask := 0x00000FFF
  tkHeadBit := 12
  tk6Mask := 0x00001FFF
  -- `CMD_STATUS` (R23, R107; D11; log 7).
  stDataRq := 30
  stC2Xfer := 28
  stBmErr := 27
  stBmInt := 26
  stMechaInt := 25
  stDiskPres := 24
  stRstState := 22
  stDiskChng := 16
  -- `BM_STATUS_CTL`: status flags (R25, R109) and control bits (R108); D12; log 8.
  bmsRunning := 31
  bmsMicro := 25
  bmsBlock := 24
  bmcStart := 31
  bmcMngrMode := 30
  bmcReset := 28
  bmcBlkTrans := 25
  bmcMechaRst := 24
  bmcSectorLsb := 16
  -- The status read (R132; D14, D15; log 20).
  pollResumeMinSector := 86
  statusSamplePoint := .afterRefresh
  -- Values (R30, R111; D17, D18; log 9).
  hardResetMagic := 0xAAAA0000
  hwId := 0x00030000
  -- The geometry tables (R250 to R252; D29; log 10).
  vzoneLba := Table.vzoneLba
  vzoneToPzone := Table.vzoneToPzone
  secSize16 := Table.secSize16
  secSizePhys := Table.secSizePhys
  trackBase := Table.trackBase
  trackStart := Table.trackStart
  flatStartOffset := Table.flatStartOffset
  zoneTracks := Table.zoneTracks
  -- The packed physical coordinate (R115; D28; log 11).
  packTrackMask := 0xFFF
  packHeadBit := 12
  packBlockBit := 13
  -- The structural cross-check (R258; D26; log 25).
  sysAreaTracks := 12
  sysAreaLbas := 24
  structMismatch sysArea offset sysOffset idOffset :=
    sysArea && decide (offset ≠ sysOffset) && decide (offset ≠ idOffset)
  -- The LBA image's first byte (D25; log 40), the byte lanes (R73, R295; D33; log 45).
  imgLba0Offset := 0
  byteLaneXor := 0

/-- The opcodes that R103 names; every other value is `CMD_OTHER` (R181). -/
def namedOps : List (BitVec 8) :=
  [param.opNoop, param.opSeekRead, param.opSeekWrite, param.opRecalibrate, param.opSleep,
   param.opStart, param.opClrDskChng, param.opClrReset, param.opReadVersion, param.opSetDiskType,
   param.opRequestStatus, param.opStandby, param.opIdxLockRetry, param.opSetYearMonth, param.opSetDayHour,
   param.opSetMinSec, param.opGetYearMonth, param.opGetDayHour, param.opGetMinSec, param.opFeatureInq]

end Sys2Proof
end

