-- ==== Sys2Proof/Machine/Operands.lean ====
section
/-! DEFINITION. Operand forms: the MMIO address decode (R72), the DMA range decode (R83), the fields of command and
control words (R102, R108), the BCD words of the clock (R113, R114). -/

namespace Sys2Proof.Machine

/-- What an MMIO address decodes to (R72, R101). -/
inductive Target where
  | reg (r : Reg)
  | mseq (k : Fin 16)
  | undefinedIndex
  | outside
  deriving DecidableEq, Repr

/-- The nine registers, in the order of R71. -/
def allRegs : List Reg :=
  [.data, .cmdStatus, .curTk, .bmStatusCtl, .curSector, .hardReset, .hostSecbyte, .secByte, .idReg]

/-- The register at a byte offset of the window, if one has it. -/
def regAt (offset : Nat) : Option Reg :=
  allRegs.find? fun r => param.regOffset r == offset

/-- The MMIO address decode of R72; the two low address bits are ignored here. -/
def decodeAddress (a : Word) : Target :=
  if param.mmioBase ≤ a.toNat ∧ a.toNat < param.mmioBase + param.regWindowSize then
    match regAt ((a.toNat - param.mmioBase) / 4 * 4) with
    | some r => .reg r
    | none => .undefinedIndex
  else if param.mseqBase ≤ a.toNat ∧ a.toNat < param.mseqBase + Config.mseqRamSize then
    .mseq (Fin.ofNat 16 ((a.toNat - param.mseqBase) / 4))
  else .outside

/-- No address bit below the word is set (R74, R101). -/
def aligned (a : Word) : Bool := a.extractLsb' 0 2 == 0

/-- The bus address of a register (R71). -/
def regAddress (r : Reg) : Word := BitVec.ofNat 32 (param.mmioBase + param.regOffset r)

/-- The bus address of a word of `mseq_ram` (R71). -/
def mseqAddress (k : Fin 16) : Word := BitVec.ofNat 32 (param.mseqBase + 4 * k.val)

/-- What a DMA cart address selects (R83). -/
inductive DmaRange where
  | c2 | ds | rom | nothing
  deriving DecidableEq, Repr

/-- The DMA range decode of R83, made once from the first address. -/
def dmaRange (romSize : Nat) (a : Word) : DmaRange :=
  if param.c2BufBase ≤ a.toNat ∧ a.toNat < param.c2BufBase + Config.c2BufSize then .c2
  else if param.dsBufBase ≤ a.toNat ∧ a.toNat < param.dsBufBase + Config.dsBufSize then .ds
  else if param.romBase ≤ a.toNat ∧ a.toNat < param.romBase + romSize then .rom
  else .nothing

/-- The byte lane of an index of a DMA copy (R73, R295): `BYTE_LANE_XOR` is 0 in logical byte order (log 45). -/
def lane (i : Nat) : Nat := i ^^^ param.byteLaneXor

/-- The index in `c2_buf` of transfer byte i (R83). -/
def c2Index (cart : Word) (i : Nat) : Nat := lane ((cart.toNat - param.c2BufBase + i) % Config.c2BufSize)

/-- The index in `ds_buf` of transfer byte i (R83). -/
def dsIndex (cart : Word) (i : Nat) : Nat := lane ((cart.toNat - param.dsBufBase + i) % Config.dsBufSize)

/-- The offset in the ROM range of a cart address (R83). -/
def romOffset (cart : Word) : Nat := cart.toNat - param.romBase

/-- The index in the ROM of transfer byte i (R83). -/
def romIndex (cart : Word) (i : Nat) : Nat := lane (romOffset cart + i)

/-- The host address of transfer byte i (R75, R291): host addresses have no width, so the sum does not wrap. DEDUCED,
log 22. -/
def hostIndex (dram i : Nat) : Nat := lane (dram + i)

/-- The word with an n-bit field at a position, and around it the other bits in their order. -/
def wordAround {n m : Nat} (lsb : Nat) (field : BitVec n) (rest : BitVec m) : Word :=
  (rest.setWidth lsb).setWidth 32 ||| (field.setWidth 32 <<< lsb) ||| ((rest >>> lsb).setWidth 32 <<< (lsb + n))

/-- The bits of a word beside the n-bit field at a position, in their order. -/
def restAround (n m : Nat) (lsb : Nat) (w : Word) : BitVec m :=
  (w.setWidth lsb).setWidth m ||| ((w >>> (lsb + n)).setWidth m <<< lsb)

/-- The opcode field of a command word (R102). -/
def cmdOp (w : Word) : BitVec 8 := w.extractLsb' param.cmdOpLsb 8

/-- The bits of a command word beside the opcode (R102). -/
def cmdRest (w : Word) : BitVec 24 := restAround 8 24 param.cmdOpLsb w

/-- The command word of an opcode and the ignored bits (R102, R103). -/
def cmdWord (op : BitVec 8) (rest : BitVec 24) : Word := wordAround param.cmdOpLsb op rest

/-- The start-sector byte of a control word (R108, R110). -/
def bmcSector (w : Word) : BitVec 8 := w.extractLsb' param.bmcSectorLsb 8

/-- The bits of a control word beside the start-sector byte. -/
def bmcSectorRest (w : Word) : BitVec 24 := restAround 8 24 param.bmcSectorLsb w

/-- The control word of a start-sector byte and the other bits. -/
def controlWordSector (sector : BitVec 8) (rest : BitVec 24) : Word := wordAround param.bmcSectorLsb sector rest

/-- The bits of a control word beside one bit. -/
def bmcBitRest (bit : Nat) (w : Word) : BitVec 31 := restAround 1 31 bit w

/-- The control word of one bit and the other bits. -/
def controlWordBit (bit : Nat) (b : Bool) (rest : BitVec 31) : Word := wordAround bit (BitVec.ofBool b) rest

/-- `byte2bcd(n)` (R113). -/
def byte2bcd (n : Int) : Byte :=
  let m := (n % 100).toNat
  (BitVec.ofNat 8 (m / 10) <<< 4) ||| BitVec.ofNat 8 (m % 10)

/-- `time2data(a, b)` (R114). -/
def time2data (a b : Int) : Word :=
  ((byte2bcd a).setWidth 32 <<< 24) ||| ((byte2bcd b).setWidth 32 <<< 16)

end Sys2Proof.Machine
end

