-- ==== Sys2Proof/Syntax.lean ====
section
/-! DEFINITION. The operations of the block (R19: an "instruction" is one operation): one constructor per row of
spec/opcode_table.json. A constructor holds what the row leaves open: the ignored bits of a command word, the
bits of a control word beside the component's own, the value written, the operands of a port event. -/

namespace Sys2Proof

/-- Every operation of R103 and R104. -/
inductive Instr where
  -- Commands (41_commands.md): op is fixed by the row, the other 24 bits are ignored (R102).
  | noop (ignored : BitVec 24)
  | seekRead (ignored : BitVec 24)
  | seekWrite (ignored : BitVec 24)
  | recalibrate (ignored : BitVec 24)
  | sleep (ignored : BitVec 24)
  | start (ignored : BitVec 24)
  | clrDskChng (ignored : BitVec 24)
  | clrReset (ignored : BitVec 24)
  | readVersion (ignored : BitVec 24)
  | setDiskType (ignored : BitVec 24)
  | requestStatus (ignored : BitVec 24)
  | standby (ignored : BitVec 24)
  | idxLockRetry (ignored : BitVec 24)
  | setYearMonth (ignored : BitVec 24)
  | setDayHour (ignored : BitVec 24)
  | setMinSec (ignored : BitVec 24)
  | getYearMonth (ignored : BitVec 24)
  | getDayHour (ignored : BitVec 24)
  | getMinSec (ignored : BitVec 24)
  | featureInq (ignored : BitVec 24)
  | cmdOther (op : BitVec 8) (ignored : BitVec 24)
  -- Register reads (40_register_access.md R131 to R139).
  | rdData
  | rdCmdStatus
  | rdCurTk
  | rdBmStatusCtl
  | rdCurSector
  | rdHardReset
  | rdHostSecbyte
  | rdSecByte
  | rdIdReg
  -- Register writes (40_register_access.md R143 to R149).
  | wrData (value : Word)
  | wrCmdStatus (value : Word)
  | wrCurTk (value : Word)
  | wrBmStatusCtl (value : Word)
  | wrCurSector (value : Word)
  | wrHardReset (value : Word)
  | wrHostSecbyte (value : Word)
  | wrSecByte (value : Word)
  | wrIdReg (value : Word)
  -- Components of the BM control write (42_bm_control.md): the bits of the control word
  -- above and below the component's own, as one string of bits around it.
  | bmctlSector00 (hi : BitVec 8) (lo : BitVec 16)
  | bmctlSector5A (hi : BitVec 8) (lo : BitVec 16)
  | bmctlSectorOther (hi : BitVec 8) (sector : BitVec 8) (lo : BitVec 16)
  | bmctlMechaRst (hi : BitVec 7) (lo : BitVec 24)
  | bmctlBlkTrans (hi : BitVec 6) (lo : BitVec 25)
  | bmctlReset (hi : BitVec 3) (lo : BitVec 28)
  | bmctlResetRelease (hi : BitVec 3) (lo : BitVec 28)
  | bmctlStart (lo : BitVec 31)
  -- The microsequencer RAM and the undefined addresses (R140, R141, R150, R151).
  | rdMseq (k : Fin 16)
  | wrMseq (k : Fin 16) (value : Word)
  | rdUndef (address : Word)
  | wrUndef (address : Word) (value : Word)
  -- Port events (R104). A host address and a length have no width (logs 22, 23).
  | step
  | cartAddr (address : Word)
  | dmaToHost (cartAddr : Word) (dramAddr : Nat) (length : Nat)
  | dmaFromHost (cartAddr : Word) (dramAddr : Nat) (length : Nat)
  | attach (image : Disk)
  | detach
  | powerOn
  deriving DecidableEq, Repr

end Sys2Proof
end

