-- ==== Sys2Proof/WellFormed.lean ====
section
/-! DEFINITION. Which terms of `Instr` are operations of the spec. -/

namespace Sys2Proof

open Sys2Proof.Machine

/-- The attachment is well formed (R253, U3): the image's bytes lie inside it in canonical form, the two
recorded offsets lie inside it, and an `LBA` image has a disk type 0..6 (D46). Log 29. -/
def Disk.wellFormed (d : Disk) : Bool :=
  Memory.wf d.data && Memory.below d.size d.data &&
  decide (d.sysOffset < d.size) && decide (d.idOffset < d.size) &&
  (d.format != .lba || decide (d.type < Config.numDiskTypes))

/-- The address of the fallback rows `RD_UNDEF` and `WR_UNDEF`: aligned, and no register's and no
microsequencer word's (R72, R101). -/
def undefAddress (a : Word) : Bool :=
  aligned a && (decodeAddress a == .undefinedIndex || decodeAddress a == .outside)

/-- The well-formed operations. -/
def Instr.wellFormed : Instr → Bool
  | .noop _ | .seekRead _ | .seekWrite _ | .recalibrate _ | .sleep _ | .start _ | .clrDskChng _
  | .clrReset _ | .readVersion _ | .setDiskType _ | .requestStatus _ | .standby _ | .idxLockRetry _
  | .setYearMonth _ | .setDayHour _ | .setMinSec _ | .getYearMonth _ | .getDayHour _ | .getMinSec _
  | .featureInq _ => true
  | .cmdOther op _ => decide (op ∉ namedOps)
  | .rdData | .rdCmdStatus | .rdCurTk | .rdBmStatusCtl | .rdCurSector | .rdHardReset | .rdHostSecbyte
  | .rdSecByte | .rdIdReg => true
  | .wrData _ | .wrCmdStatus _ | .wrCurTk _ | .wrBmStatusCtl _ | .wrCurSector _ | .wrHardReset _
  | .wrHostSecbyte _ | .wrSecByte _ | .wrIdReg _ => true
  | .bmctlSector00 _ _ | .bmctlSector5A _ _ => true
  | .bmctlSectorOther _ b _ => decide (b ≠ Config.startByteBlock0 ∧ b ≠ Config.startByteBlock1)
  | .bmctlMechaRst _ _ | .bmctlBlkTrans _ _ | .bmctlReset _ _ | .bmctlResetRelease _ _ | .bmctlStart _ => true
  | .rdMseq _ | .wrMseq _ _ => true
  | .rdUndef a => undefAddress a
  | .wrUndef a _ => undefAddress a
  | .step | .cartAddr _ | .dmaToHost _ _ _ | .dmaFromHost _ _ _ => true
  | .attach image => image.wellFormed
  | .detach | .powerOn => true

end Sys2Proof
end

