-- ==== Sys2Proof/Decode.lean ====
section
/-! DEFINITION. The decoder: from an operation as an agent issues it (the formats of R100, the port events of
R104, the notations of R118) to an `Instr`, total, each rejection by name; then the encoder; then the reading of
a bare table word. The block fetches no bytes (R45): what is decoded is one operation with its words. -/

namespace Sys2Proof

open Sys2Proof.Machine

/-- The component of the BM control write that the `BMCTL` notation names (R118, R201 to R206). -/
inductive BmPart where
  | sector00 | sector5A | sectorOther | mechaRst | blkTrans | reset | resetRelease | start
  deriving DecidableEq, Repr

/-- One operation as it reaches the block: the formats `MMIO_RD`, `MMIO_WR`, `CMD` and `PORT` of R100, and
R118's `BMCTL`, a control word with the component it names. Log 3. -/
inductive Operation where
  | mmioRd (address : Word)
  | mmioWr (address value mask : Word)
  | cmd (word : Word)
  | bmctl (part : BmPart) (word : Word)
  | step
  | cartAddr (address : Word)
  | dmaToHost (cartAddr : Word) (dramAddr length : Nat)
  | dmaFromHost (cartAddr : Word) (dramAddr length : Nat)
  | attach (image : Disk)
  | detach
  | powerOn
  deriving DecidableEq, Repr

/-- Why an operation decodes to nothing. -/
inductive DecodeError where
  /-- An MMIO access whose address has one of its two low bits set (R74, U1). -/
  | misalignedAddress
  /-- An MMIO write whose mask is not 0xFFFFFFFF (R74, U1). -/
  | partialWriteMask
  /-- A `BMCTL` whose word does not hold the bits of the component it names: no operation of R118. -/
  | notInControlWord
  /-- An `ATTACH` of an ill-formed image (R253, U3). -/
  | illFormedImage
  deriving DecidableEq, Repr

/-- The command that an opcode selects (R103, R160). -/
def commandOf (op : BitVec 8) (rest : BitVec 24) : Instr :=
  if op = param.opNoop then .noop rest
  else if op = param.opSeekRead then .seekRead rest
  else if op = param.opSeekWrite then .seekWrite rest
  else if op = param.opRecalibrate then .recalibrate rest
  else if op = param.opSleep then .sleep rest
  else if op = param.opStart then .start rest
  else if op = param.opClrDskChng then .clrDskChng rest
  else if op = param.opClrReset then .clrReset rest
  else if op = param.opReadVersion then .readVersion rest
  else if op = param.opSetDiskType then .setDiskType rest
  else if op = param.opRequestStatus then .requestStatus rest
  else if op = param.opStandby then .standby rest
  else if op = param.opIdxLockRetry then .idxLockRetry rest
  else if op = param.opSetYearMonth then .setYearMonth rest
  else if op = param.opSetDayHour then .setDayHour rest
  else if op = param.opSetMinSec then .setMinSec rest
  else if op = param.opGetYearMonth then .getYearMonth rest
  else if op = param.opGetDayHour then .getDayHour rest
  else if op = param.opGetMinSec then .getMinSec rest
  else if op = param.opFeatureInq then .featureInq rest
  else .cmdOther op rest

/-- A command word (R102). -/
def decodeCommand (w : Word) : Instr := commandOf (cmdOp w) (cmdRest w)

/-- The read of a register (R130). -/
def readOf : Reg → Instr
  | .data => .rdData
  | .cmdStatus => .rdCmdStatus
  | .curTk => .rdCurTk
  | .bmStatusCtl => .rdBmStatusCtl
  | .curSector => .rdCurSector
  | .hardReset => .rdHardReset
  | .hostSecbyte => .rdHostSecbyte
  | .secByte => .rdSecByte
  | .idReg => .rdIdReg

/-- The write of a register (R142). -/
def writeOf (v : Word) : Reg → Instr
  | .data => .wrData v
  | .cmdStatus => .wrCmdStatus v
  | .curTk => .wrCurTk v
  | .bmStatusCtl => .wrBmStatusCtl v
  | .curSector => .wrCurSector v
  | .hardReset => .wrHardReset v
  | .hostSecbyte => .wrHostSecbyte v
  | .secByte => .wrSecByte v
  | .idReg => .wrIdReg v

/-- `MMIO_RD(address)` (R130). -/
def decodeRead (a : Word) : Except DecodeError Instr :=
  if aligned a then
    .ok (match decodeAddress a with
      | .reg r => readOf r
      | .mseq k => .rdMseq k
      | .undefinedIndex | .outside => .rdUndef a)
  else .error .misalignedAddress

/-- `MMIO_WR(address, value, mask)` (R142). -/
def decodeWrite (a v mask : Word) : Except DecodeError Instr :=
  if mask ≠ 0xFFFFFFFF then .error .partialWriteMask
  else if aligned a then
    .ok (match decodeAddress a with
      | .reg r => writeOf v r
      | .mseq k => .wrMseq k v
      | .undefinedIndex | .outside => .wrUndef a v)
  else .error .misalignedAddress

/-- A control word under the component it is written for (R108, R118): the word must hold that component's bits. -/
def decodeBmctl (p : BmPart) (w : Word) : Except DecodeError Instr :=
  match p with
  | .sector00 =>
    if bmcSector w = Config.startByteBlock0 then
      .ok (.bmctlSector00 ((bmcSectorRest w).extractLsb' 16 8) ((bmcSectorRest w).extractLsb' 0 16))
    else .error .notInControlWord
  | .sector5A =>
    if bmcSector w = Config.startByteBlock1 then
      .ok (.bmctlSector5A ((bmcSectorRest w).extractLsb' 16 8) ((bmcSectorRest w).extractLsb' 0 16))
    else .error .notInControlWord
  | .sectorOther =>
    if bmcSector w ≠ Config.startByteBlock0 ∧ bmcSector w ≠ Config.startByteBlock1 then
      .ok (.bmctlSectorOther ((bmcSectorRest w).extractLsb' 16 8) (bmcSector w) ((bmcSectorRest w).extractLsb' 0 16))
    else .error .notInControlWord
  | .mechaRst =>
    if w.getLsbD param.bmcMechaRst then
      .ok (.bmctlMechaRst ((bmcBitRest param.bmcMechaRst w).extractLsb' 24 7)
        ((bmcBitRest param.bmcMechaRst w).extractLsb' 0 24))
    else .error .notInControlWord
  | .blkTrans =>
    if w.getLsbD param.bmcBlkTrans then
      .ok (.bmctlBlkTrans ((bmcBitRest param.bmcBlkTrans w).extractLsb' 25 6)
        ((bmcBitRest param.bmcBlkTrans w).extractLsb' 0 25))
    else .error .notInControlWord
  | .reset =>
    if w.getLsbD param.bmcReset then
      .ok (.bmctlReset ((bmcBitRest param.bmcReset w).extractLsb' 28 3)
        ((bmcBitRest param.bmcReset w).extractLsb' 0 28))
    else .error .notInControlWord
  | .resetRelease =>
    if w.getLsbD param.bmcReset then .error .notInControlWord
    else
      .ok (.bmctlResetRelease ((bmcBitRest param.bmcReset w).extractLsb' 28 3)
        ((bmcBitRest param.bmcReset w).extractLsb' 0 28))
  | .start =>
    if w.getLsbD param.bmcStart then .ok (.bmctlStart (bmcBitRest param.bmcStart w)) else .error .notInControlWord

/-- The decoder. -/
def decode : Operation → Except DecodeError Instr
  | .mmioRd a => decodeRead a
  | .mmioWr a v mask => decodeWrite a v mask
  | .cmd w => .ok (decodeCommand w)
  | .bmctl p w => decodeBmctl p w
  | .step => .ok .step
  | .cartAddr a => .ok (.cartAddr a)
  | .dmaToHost c d n => .ok (.dmaToHost c d n)
  | .dmaFromHost c d n => .ok (.dmaFromHost c d n)
  | .attach image => if image.wellFormed then .ok (.attach image) else .error .illFormedImage
  | .detach => .ok .detach
  | .powerOn => .ok .powerOn

/-- The full-word mask (R74). -/
def fullMask : Word := 0xFFFFFFFF

/-- The encoder: the operation, with its words, of an instruction (R100 to R104, R108, R118). -/
def encode : Instr → Operation
  | .noop r => .cmd (cmdWord param.opNoop r)
  | .seekRead r => .cmd (cmdWord param.opSeekRead r)
  | .seekWrite r => .cmd (cmdWord param.opSeekWrite r)
  | .recalibrate r => .cmd (cmdWord param.opRecalibrate r)
  | .sleep r => .cmd (cmdWord param.opSleep r)
  | .start r => .cmd (cmdWord param.opStart r)
  | .clrDskChng r => .cmd (cmdWord param.opClrDskChng r)
  | .clrReset r => .cmd (cmdWord param.opClrReset r)
  | .readVersion r => .cmd (cmdWord param.opReadVersion r)
  | .setDiskType r => .cmd (cmdWord param.opSetDiskType r)
  | .requestStatus r => .cmd (cmdWord param.opRequestStatus r)
  | .standby r => .cmd (cmdWord param.opStandby r)
  | .idxLockRetry r => .cmd (cmdWord param.opIdxLockRetry r)
  | .setYearMonth r => .cmd (cmdWord param.opSetYearMonth r)
  | .setDayHour r => .cmd (cmdWord param.opSetDayHour r)
  | .setMinSec r => .cmd (cmdWord param.opSetMinSec r)
  | .getYearMonth r => .cmd (cmdWord param.opGetYearMonth r)
  | .getDayHour r => .cmd (cmdWord param.opGetDayHour r)
  | .getMinSec r => .cmd (cmdWord param.opGetMinSec r)
  | .featureInq r => .cmd (cmdWord param.opFeatureInq r)
  | .cmdOther op r => .cmd (cmdWord op r)
  | .rdData => .mmioRd (regAddress .data)
  | .rdCmdStatus => .mmioRd (regAddress .cmdStatus)
  | .rdCurTk => .mmioRd (regAddress .curTk)
  | .rdBmStatusCtl => .mmioRd (regAddress .bmStatusCtl)
  | .rdCurSector => .mmioRd (regAddress .curSector)
  | .rdHardReset => .mmioRd (regAddress .hardReset)
  | .rdHostSecbyte => .mmioRd (regAddress .hostSecbyte)
  | .rdSecByte => .mmioRd (regAddress .secByte)
  | .rdIdReg => .mmioRd (regAddress .idReg)
  | .wrData v => .mmioWr (regAddress .data) v fullMask
  | .wrCmdStatus v => .mmioWr (regAddress .cmdStatus) v fullMask
  | .wrCurTk v => .mmioWr (regAddress .curTk) v fullMask
  | .wrBmStatusCtl v => .mmioWr (regAddress .bmStatusCtl) v fullMask
  | .wrCurSector v => .mmioWr (regAddress .curSector) v fullMask
  | .wrHardReset v => .mmioWr (regAddress .hardReset) v fullMask
  | .wrHostSecbyte v => .mmioWr (regAddress .hostSecbyte) v fullMask
  | .wrSecByte v => .mmioWr (regAddress .secByte) v fullMask
  | .wrIdReg v => .mmioWr (regAddress .idReg) v fullMask
  | .bmctlSector00 hi lo => .bmctl .sector00 (controlWordSector Config.startByteBlock0 (hi ++ lo))
  | .bmctlSector5A hi lo => .bmctl .sector5A (controlWordSector Config.startByteBlock1 (hi ++ lo))
  | .bmctlSectorOther hi b lo => .bmctl .sectorOther (controlWordSector b (hi ++ lo))
  | .bmctlMechaRst hi lo => .bmctl .mechaRst (controlWordBit param.bmcMechaRst true (hi ++ lo))
  | .bmctlBlkTrans hi lo => .bmctl .blkTrans (controlWordBit param.bmcBlkTrans true (hi ++ lo))
  | .bmctlReset hi lo => .bmctl .reset (controlWordBit param.bmcReset true (hi ++ lo))
  | .bmctlResetRelease hi lo => .bmctl .resetRelease (controlWordBit param.bmcReset false (hi ++ lo))
  | .bmctlStart lo => .bmctl .start (controlWordBit param.bmcStart true lo)
  | .rdMseq k => .mmioRd (mseqAddress k)
  | .wrMseq k v => .mmioWr (mseqAddress k) v fullMask
  | .rdUndef a => .mmioRd a
  | .wrUndef a v => .mmioWr a v fullMask
  | .step => .step
  | .cartAddr a => .cartAddr a
  | .dmaToHost c d n => .dmaToHost c d n
  | .dmaFromHost c d n => .dmaFromHost c d n
  | .attach image => .attach image
  | .detach => .detach
  | .powerOn => .powerOn

/-- The operation that a bare word of spec/opcode_table.json stands for. The table's rows give a word and the
format beside it; a bare word names no format, and rows of three formats share words (0x05000508 is the address
of `RD_CMD_STATUS` and of `WR_CMD_STATUS`, and a `START` command word). DESIGN CHOICE, log 2: the address of a
register or of a microsequencer word is read as `MMIO_RD`; the two one-component control words of R209 that are
no command's own word (0x005A0000, 0x80000000) as `BMCTL`; every other word as `CMD`. -/
def tableOperation (nbits w : Nat) : Operation :=
  let word : Word := BitVec.ofNat 32 (w % 2 ^ nbits)
  match aligned word, decodeAddress word with
  | true, .reg _ => .mmioRd word
  | true, .mseq _ => .mmioRd word
  | _, _ =>
    if word = controlWordSector Config.startByteBlock1 0 then .bmctl .sector5A word
    else if word = controlWordBit param.bmcStart true 0 then .bmctl .start word
    else .cmd word

/-- What the decoder reads from a bare word of the table (one 32-bit word; a longer row has no reading). -/
def decodeTableWord (nbits w : Nat) : Option Instr :=
  if w % 2 ^ nbits < 2 ^ 32 then (decode (tableOperation nbits w)).toOption else none

end Sys2Proof
end

