-- ==== Sys2Proof/Machine/State.lean ====
section
/-! DEFINITION. The device state (R20 to R43), the memories outside the block that its operations touch, and the
model's own fields. -/

namespace Sys2Proof.Machine

/-- The whole state: plain data, every field described where it is declared. -/
structure State where
  -- The register file (R21).
  /-- `DATA` (R22). -/
  data : Word
  /-- `CMD_STATUS` (R23): the stored status word; bit positions in `param.st…`. -/
  cmdStatus : Word
  /-- `CUR_TK` (R24). -/
  curTk : Word
  /-- `BM_STATUS_CTL` (R25): the stored status flags; bit positions in `param.bms…`. -/
  bmStatusCtl : Word
  /-- `CUR_SECTOR` (R26): the sector index. -/
  curSector : Word
  /-- `HARD_RESET` (R27): always 0. -/
  hardReset : Word
  /-- `HOST_SECBYTE` (R28). -/
  hostSecbyte : Word
  /-- `SEC_BYTE` (R29). -/
  secByte : Word
  /-- `ID_REG` (R30). -/
  idReg : Word
  -- The sequencer latches (R32 to R36).
  /-- `bm_write`: true is write, host to disk (R32). -/
  bmWrite : Bool
  /-- `bm_block`: false is block 0, true is block 1 (R33). -/
  bmBlock : Bool
  /-- `bm_zone` (R34). -/
  bmZone : Fin 16
  /-- `bm_track_offset` (R35). -/
  bmTrackOffset : Word
  /-- `bm_reset_held` (R36). -/
  bmResetHeld : Bool
  -- Other storage (R37 to R43).
  /-- `c2_buf`, 1024 bytes (R37). -/
  c2Buf : Memory
  /-- `ds_buf`, 256 bytes (R38). -/
  dsBuf : Memory
  /-- `mseq_ram` (R39). -/
  mseqRam : Vector Word 16
  /-- `rtc.now` (R40). -/
  rtcNow : Int
  /-- `rtc.last` (R40). -/
  rtcLast : Int
  /-- `lba_phys_table` (R41): empty until an `LBA` image's table is first built (log 15). -/
  lbaPhysTable : List (BitVec 16)
  /-- `irq_line` (R42). -/
  irqLine : Bool
  /-- `disk` (R43). Its type, defects and offsets are those of the latest table build or attach (R376). -/
  disk : Option Disk
  -- Outside the block (R14, R70).
  /-- Host memory, touched by the DMA operations only: that nothing else writes it between operations is a DESIGN
  CHOICE of the model, unsafe (log 43). -/
  hostMem : Memory
  /-- The ROM image behind the ROM range (R293); nothing writes it. -/
  rom : Rom
  -- The model's own.
  /-- A sector write has met the attached image's system data since its metadata were read (R376). DESIGN CHOICE,
  log 44. -/
  sysDataWritten : Bool
  /-- The operations invoked and not yet performed, oldest first (R6, R78; log 1). -/
  pending : List Operation
  /-- The counter the free values of `Config` are applied to (log 16). -/
  oracle : Nat
  /-- The diagnostic log (R321), oldest first: an output, read by nothing (R44). -/
  diags : List Diag
  /-- The calls raise (true) and clear (false) interrupt(line) (R330, R303): an output. -/
  lineCalls : List Bool
  /-- The calls `InvalidateCode(address, length)` (R291, R303): an output. -/
  invalidations : List (Nat × Nat)
  /-- The value the latest MMIO read returned (R130): an output. -/
  readValue : Option Word
  /-- The cost the latest DMA transfer returned (R291, R292): an output. -/
  dmaCost : Option Nat
  deriving DecidableEq, Repr

/-- Why the machine stops with a fault: never. Nothing in this hardware aborts, traps, stalls or refuses service
(R320), and an address that does not exist is a defined access (R141, R151, R291), so there is no constructor. -/
inductive Fault where
  deriving DecidableEq, Repr

/-- Why a step has no meaning. -/
inductive Refusal where
  /-- Raised by `exec` for an instruction without a meaning; no arm raises it. Safe. -/
  | notModelled (mnemonic : String)
  /-- Raised by `step` for an MMIO access with a low address bit set: a contract violation of the caller to which
  the block gives no meaning (R74, U1; log 28). Safe: the machine stops. -/
  | misalignedAddress
  /-- Raised by `step` for an MMIO write whose mask is not 0xFFFFFFFF: as above (R74, U1; log 28). Safe. -/
  | partialWriteMask
  /-- Raised by `step` for a pending `BMCTL` record whose word lacks the bits of the component it names: no
  operation of the spec (R118; log 3). Safe. -/
  | notInControlWord
  /-- Raised by `step` for an `ATTACH` of an ill-formed image (R253, U3; log 29). Safe. -/
  | illFormedImage
  deriving DecidableEq, Repr

/-- The machine right after power-on with no disk attached (R47, R360). -/
def State.reset : State where
  data := 0
  cmdStatus := 1#32 <<< param.stRstState
  curTk := 0
  bmStatusCtl := 0
  curSector := 0
  hardReset := 0
  hostSecbyte := 0
  secByte := 0
  idReg := param.hwId
  bmWrite := false
  bmBlock := false
  bmZone := 0
  bmTrackOffset := 0
  bmResetHeld := false
  c2Buf := []
  dsBuf := []
  mseqRam := Vector.replicate 16 0
  rtcNow := 0
  rtcLast := 0
  lbaPhysTable := []
  irqLine := false
  disk := none
  hostMem := []
  rom := { size := 0, data := [] }
  sysDataWritten := false
  pending := []
  oracle := 0
  diags := []
  lineCalls := []
  invalidations := []
  readValue := none
  dmaCost := none

end Sys2Proof.Machine
end

