-- ==== Sys2Proof/Machine/Flags.lean ====
section
/-! DEFINITION. The status flags (R46): one bit of a word, and the eleven flags of `CMD_STATUS` and `BM_STATUS_CTL`. -/

namespace Sys2Proof.Machine

/-- A word with one bit written and the others unchanged (R13). -/
def putBit (w : Word) (n : Nat) (b : Bool) : Word :=
  if b then w ||| (1#32 <<< n) else w &&& ~~~(1#32 <<< n)

/-- The state with one bit of `CMD_STATUS` written. -/
def State.putStatus (s : State) (n : Nat) (b : Bool) : State :=
  { s with cmdStatus := putBit s.cmdStatus n b }

/-- The state with one bit of `BM_STATUS_CTL` written. -/
def State.putBms (s : State) (n : Nat) (b : Bool) : State :=
  { s with bmStatusCtl := putBit s.bmStatusCtl n b }

/-- The pending bit of an interrupt source (R327). -/
def irqBit : IrqSource → Nat
  | .mecha => param.stMechaInt
  | .bm => param.stBmInt

/-! The flags as read. -/

def State.dataRq (s : State) : Bool := s.cmdStatus.getLsbD param.stDataRq
def State.c2Xfer (s : State) : Bool := s.cmdStatus.getLsbD param.stC2Xfer
def State.bmErr (s : State) : Bool := s.cmdStatus.getLsbD param.stBmErr
def State.bmInt (s : State) : Bool := s.cmdStatus.getLsbD param.stBmInt
def State.mechaInt (s : State) : Bool := s.cmdStatus.getLsbD param.stMechaInt
def State.diskPres (s : State) : Bool := s.cmdStatus.getLsbD param.stDiskPres
def State.rstState (s : State) : Bool := s.cmdStatus.getLsbD param.stRstState
def State.diskChng (s : State) : Bool := s.cmdStatus.getLsbD param.stDiskChng
def State.running (s : State) : Bool := s.bmStatusCtl.getLsbD param.bmsRunning
def State.micro (s : State) : Bool := s.bmStatusCtl.getLsbD param.bmsMicro
def State.continueBlock (s : State) : Bool := s.bmStatusCtl.getLsbD param.bmsBlock

end Sys2Proof.Machine
end

