-- ==== Sys2Proof/Machine/Geometry.lean ====
section
/-! DEFINITION. The geometry translator (44_geometry.md): pure functions of their arguments, the tables and the
attached disk's type and defect lists (R274). -/

namespace Sys2Proof.Machine

/-- `SEC_SIZE16[zone]` (R250). -/
def secSize16 (zone : Fin 16) : Nat := param.secSize16.getD zone.val 0

/-- `SEC_SIZE_PHYS[i]` (R250). -/
def secSizePhys (i : Nat) : Nat := param.secSizePhys.getD i 0

/-- `TRACK_BASE[z]` (R252). -/
def trackBase (z : Nat) : Nat := param.trackBase.getD z 0

/-- `TRACK_START[pz]` (R252). -/
def trackStart (pz : Fin 16) : Nat := param.trackStart.getD pz.val 0

/-- `FLAT_START_OFFSET[zone]` (R252). -/
def flatStartOffset (zone : Fin 16) : Nat := param.flatStartOffset.getD zone.val 0

/-- `VZONE_LBA[type][v]` (R251). -/
def vzoneLba (type v : Nat) : Nat := (param.vzoneLba.getD type []).getD v 0

/-- `LBAToVZone(type, lba)` (R259): the first virtual zone whose boundary exceeds the LBA; none is `NO_ZONE`. -/
def lbaToVZone (type lba : Nat) : Option Nat :=
  (param.vzoneLba.getD type []).findIdx? fun boundary => decide (lba < boundary)

/-- `VZoneToPZone(type, vzone)` (R260). -/
def vzoneToPZone (type v : Nat) : Fin 16 := Fin.ofNat 16 ((param.vzoneToPzone.getD type []).getD v 0)

/-- `SizeIndex(pz)` (R261). -/
def sizeIndex (pz : Fin 16) : Nat := if pz.val > 7 then pz.val - 7 else pz.val

/-- `Head(pz)` (R261). -/
def headOf (pz : Fin 16) : Nat := if pz.val > 7 then 1 else 0

/-- The byte size of a block of virtual zone v: `SEC_SIZE_PHYS[SizeIndex(VZoneToPZone(type, v))] * 85`. -/
def vzoneBlockBytes (type v : Nat) : Nat :=
  secSizePhys (sizeIndex (vzoneToPZone type v)) * Config.sectorsPerBlock

/-- `PhysBlockBytes(type, lba)` (R262). DESIGN CHOICE, log 46: an LBA in no zone has no block, so 0 bytes. -/
def physBlockBytes (type lba : Nat) : Nat :=
  match lbaToVZone type lba with
  | some v => vzoneBlockBytes type v
  | none => 0

/-- The zone and block size the loop of `LBAToByte` uses for an LBA (R263): looked up for the first block and
when a boundary was crossed, kept otherwise. None: the lookup found no zone, a failure by R259 (DEDUCED, log 46). -/
def runZone (type lba : Nat) (first : Bool) (vz bs : Nat) : Option (Nat × Nat) :=
  if first || lba == vzoneLba type vz then
    (lbaToVZone type lba).map fun v => (v, vzoneBlockBytes type v)
  else some (vz, bs)

/-- The loop of `LBAToByte` (R263) with n blocks to go. -/
def lbaToByteLoop (type : Nat) : Nat → Nat → Bool → Nat → Nat → Nat → Nat
  | 0, _, _, _, _, total => total
  | n + 1, lba, first, vz, bs, total =>
    match runZone type lba first vz bs with
    | none => Config.byteOverflow
    | some (vz', bs') =>
      if lba + 1 > Config.maxLba ∧ n > 0 then Config.byteOverflow
      else lbaToByteLoop type n (lba + 1) false vz' bs' (total + bs')

/-- `LBAToByte(type, start, n)` (R263). -/
def lbaToByte (type start n : Nat) : Nat := lbaToByteLoop type n start true 0 0 0

/-- `ZoneStartLBA(type, vz)` (R264). -/
def zoneStartLba (type v : Nat) : Nat := if v = 0 then 0 else vzoneLba type (v - 1)

/-- Block parity (R266). -/
def blockOf (lba : Nat) : Nat := if lba % 4 = 0 ∨ lba % 4 = 3 then 0 else 1

/-- The track before defect compensation (R267). -/
def nominalTrack (pz : Fin 16) (rel : Nat) : Nat :=
  if headOf pz = 0 then trackStart pz + rel else trackStart pz - rel

/-- Defect compensation (R268): the cursor walks the list while the entry, offset by the zone's track start, is at
or below the track as corrected so far. -/
def skipDefects (base : Nat) : List Nat → Nat → Nat
  | [], track => track
  | d :: ds, track => if d + base ≤ track then skipDefects base ds (track + 1) else track

/-- The packed physical coordinate (R115). -/
def packPhys (track head block : Nat) : BitVec 16 :=
  BitVec.ofNat 16 ((track &&& param.packTrackMask) ||| (head <<< param.packHeadBit) ||| (block <<< param.packBlockBit))

/-- `LBAToPhys(lba)` for a disk type and its defect lists (R265), which defines it for the LBAs up to the last on a disk
of type 0 to 6. DESIGN CHOICE, log 46: any other LBA, which lies in no zone, is taken in virtual zone 0. -/
def lbaToPhys (type : Nat) (defects : Vector (List Nat) 16) (lba : Nat) : BitVec 16 :=
  let vz := (lbaToVZone type lba).getD 0
  let pz := vzoneToPZone type vz
  let rel := (lba - zoneStartLba type vz) / 2
  let track := skipDefects (trackBase (pz.val % 8)) (defects.get pz) (nominalTrack pz rel)
  packPhys track (headOf pz) (blockOf lba)

/-- The table build (R271). -/
def buildTable (d : Disk) : List (BitVec 16) :=
  (List.range (Config.maxLba + 1)).map (lbaToPhys d.type d.defects)

/-- `PhysToLBA(coord)` (R272): the first entry that equals the coordinate, else `LBA_NOT_FOUND`. -/
def physToLba (table : List (BitVec 16)) (coord : BitVec 16) : Nat :=
  (table.findIdx? (· == coord)).getD Config.lbaNotFound

/-- What `Seek()` resolves (R254 to R257). -/
inductive SeekResult where
  /-- `DIRECT`: nothing is resolved and nothing fails (R257). -/
  | direct
  /-- `PhysToLBA` found no LBA for the coordinate (R256). -/
  | unresolved (coord : BitVec 16)
  /-- `LBAToByte` overflowed (R256). -/
  | overflow (lba : Nat)
  /-- The zone, the byte offset in the image, and whether the block lies in the system area (R258). -/
  | found (zone : Fin 16) (offset : Nat) (sysArea : Bool)
  deriving DecidableEq, Repr

/-- The head of a current-track word (R24). -/
def tkHead (curTk : Word) : Nat := if curTk.getLsbD param.tkHeadBit then 1 else 0

/-- The track of a current-track word (R24). -/
def tkTrack (curTk : Word) : Nat := (curTk &&& param.tkTrackMask).toNat

/-- The linear scan of the flat seek: the largest zone in head whose first track is at or below the track (R255). -/
def zoneInHead (track : Nat) : Nat :=
  (List.range 8).foldl (fun best z => if trackBase z ≤ track then z else best) 0

/-- The flat seek (R255) for the effective sector e; the system area is the first tracks of head 0 (R258; log 25). -/
def flatSeek (curTk : Word) (block : Nat) (e : Nat) : SeekResult :=
  let head := tkHead curTk
  let track := tkTrack curTk
  let zih := zoneInHead track
  let zone := Fin.ofNat 16 (zih + 8 * head)
  let n := secSize16 zone
  .found zone
    (flatStartOffset zone
      + (track - trackBase zih) * n * Config.sectorsPerBlock * Config.blocksPerTrack
      + block * n * Config.sectorsPerBlock
      + e * n)
    (decide (head = 0 ∧ track < param.sysAreaTracks))

/-- The packed coordinate the LBA seek looks up: the track and the head of the current-track word and the block,
packed as R115 (R256). -/
def seekCoord (curTk : Word) (block : Nat) : BitVec 16 := packPhys (tkTrack curTk) (tkHead curTk) block

/-- The LBA seek (R256) for the effective sector e; the system area is the first LBAs (R258; log 25). An LBA in no zone
(`NO_ZONE`, unreachable) is a failure as R259 says. -/
def lbaSeek (type : Nat) (table : List (BitVec 16)) (curTk : Word) (block : Nat) (e : Nat) : SeekResult :=
  let coord := seekCoord curTk block
  let lba := physToLba table coord
  if lba = Config.lbaNotFound then .unresolved coord
  else
    match lbaToVZone type lba with
    | none => .overflow lba
    | some v =>
      let pz := vzoneToPZone type v
      let b := lbaToByte type 0 lba
      if b = Config.byteOverflow then .overflow lba
      else .found pz (param.imgLba0Offset + b + e * secSize16 pz) (decide (lba < param.sysAreaLbas))

/-- What a seek on an attached disk resolves, by its format (R254). -/
def resolve (d : Disk) (table : List (BitVec 16)) (curTk : Word) (block : Nat) (e : Nat) : SeekResult :=
  match d.format with
  | .flat => flatSeek curTk block e
  | .lba => lbaSeek d.type table curTk block e
  | .direct => .direct

/-- `StructMismatch()` (R258): by default, in the system area and at neither recorded location. DESIGN CHOICE of the
spec, log 25. -/
def structMismatch (d : Disk) (sysArea : Bool) (offset : Word) : Bool :=
  param.structMismatch sysArea offset.toNat d.sysOffset d.idOffset

/-- The bytes of a block of physical zone 0, the zone of the system area (R250, R258). -/
def systemBlockBytes : Nat := secSizePhys 0 * Config.sectorsPerBlock

/-- The n bytes at an offset of an `LBA` image meet its system data: the blocks of the system area, which hold the
copies, or the block at the recorded offset (R258, R376; the extent: log 44). -/
def overSystemData (d : Disk) (offset n : Nat) : Bool :=
  decide (offset < param.imgLba0Offset + param.sysAreaLbas * systemBlockBytes) ||
  (decide (offset < d.sysOffset + systemBlockBytes) && decide (d.sysOffset < offset + n))

/-- The attachment with its system data read anew (R376). The read offsets lie in the image, as R253 asks. -/
def withSystemData (d : Disk) (r : SystemData) : Disk :=
  { d with
    type := r.type
    defects := r.defects
    sysOffset := r.sysOffset % d.size
    idOffset := r.idOffset % d.size }

end Sys2Proof.Machine
end

