-- ==== Sys2Proof/Machine/Ops.lean ====
section
/-! DEFINITION. The shared operations: the diagnostic log, the interrupt controller (raising a source is this
block's "trap entry", R333, clearing it its "trap return", R334), the clock, the disk-present refresh, and taking
the next pending operation. -/

namespace Sys2Proof.Machine

/-- `Diag(CODE, info)` (R15, R321): one record, nothing else. -/
def State.diag (s : State) (code : DiagCode) (info : Word) : State :=
  { s with diags := s.diags ++ [{ code := code, info := info }] }

/-- `Diag(CODE, info)` when a condition holds. -/
def State.diagIf (s : State) (b : Bool) (code : DiagCode) (info : Word) : State :=
  { s with diags := if b then s.diags ++ [{ code := code, info := info }] else s.diags }

/-- At least one source is pending (R330). -/
def State.irqPending (s : State) : Bool := s.mechaInt || s.bmInt

/-- `UpdateIrqLine()` (R330): the line is the OR of the two sources; the CPU-core collaborator is called when it
changes. Log 21. -/
def State.updateIrqLine (s : State) : State :=
  { s with
    irqLine := s.irqPending
    lineCalls := if s.irqPending = s.irqLine then s.lineCalls else s.lineCalls ++ [s.irqPending] }

/-- `SetIrq(SRC)` (R328): the block's "trap entry" (R333). -/
def State.setIrq (s : State) (src : IrqSource) : State :=
  (s.putStatus (irqBit src) true).updateIrqLine

/-- `ClrIrq(SRC)` (R329): the block's "trap return" (R334). -/
def State.clrIrq (s : State) (src : IrqSource) : State :=
  (s.putStatus (irqBit src) false).updateIrqLine

/-- The value an MMIO read returns (R130). -/
def State.returnValue (s : State) (v : Word) : State := { s with readValue := some v }

/-- A disk image is attached. -/
def State.diskAttached (s : State) : Bool := s.disk.isSome

/-- The disk-present refresh (R132 step 1). -/
def State.refreshDiskPres (s : State) : State := s.putStatus param.stDiskPres s.diskAttached

/-- The number 0 or 1 of the active block (R33). -/
def State.blockNum (s : State) : Nat := if s.bmBlock then 1 else 0

/-- The state part of `RtcSample()` for the clock's answer t (R296). -/
def State.rtcAdvance (s : State) (t : Int) : State :=
  { s with rtcNow := s.rtcNow + (t - s.rtcLast), rtcLast := t }

/-- `RtcSample()` (R296): draws the clock's answer, a free value (log 16). -/
def State.rtcSample (s : State) : State :=
  { s.rtcAdvance (Config.clockAnswer s.oracle) with oracle := s.oracle + 1 }

/-- The calendar fields of the emulated time (R297), free at each sample (log 17). -/
def State.calendar (s : State) : CalendarFields := Config.calendar s.oracle s.rtcNow

/-- The reverse table of an attachment: built for an `LBA` image, left as it was otherwise (R271). -/
def tableFor (d : Disk) (old : List (BitVec 16)) : List (BitVec 16) :=
  if d.format = .lba then buildTable d else old

/-- The refusal a rejected operation ends in (R74, R253, U1, U3). -/
def refusalOf : DecodeError → Refusal
  | .misalignedAddress => .misalignedAddress
  | .partialWriteMask => .partialWriteMask
  | .notInControlWord => .notInControlWord
  | .illFormedImage => .illFormedImage

/-- The oldest operation not yet performed, and the state without it (R78: the order of invocation). -/
def State.takePending (s : State) : Option (Operation × State) :=
  match s.pending with
  | [] => none
  | op :: rest => some (op, { s with pending := rest })

/-- The state with an operation placed where the next step takes it. -/
def State.place (s : State) (op : Operation) : State := { s with pending := op :: s.pending }

end Sys2Proof.Machine
end

