-- ==== Sys2Proof/Machine/Sequencer.lean ====
section
/-! DEFINITION. The block-manager sequencer (43_bm_sequencer.md): `Seek()`, the two sector primitives, `BMStep()` and
its branches, and the port event `STEP`. -/

namespace Sys2Proof.Machine

/-- The effective data sector of a seek: the sector index less `bm_write` (R254, D21). -/
def State.effectiveSector (s : State) : Nat :=
  (s.curSector - (if s.bmWrite then 1 else 0)).toNat

/-- What `Seek()` does with what it resolved (R254 to R258): the state, and whether the seek failed. -/
def applySeek (s : State) (d : Disk) (e : Nat) : SeekResult → State × Bool
  | .direct => (s, false)
  | .unresolved coord => (s.diag .seekUnresolved (coord.setWidth 32), true)
  | .overflow lba => (s.diag .lbaOverflow (BitVec.ofNat 32 lba), true)
  | .found zone offset sysArea =>
    let off : Word := BitVec.ofNat 32 offset
    ({ s with
        bmZone := zone
        bmTrackOffset := off
        bmStatusCtl :=
          if e = 0 ∧ structMismatch d sysArea off = true then putBit s.bmStatusCtl param.bmsMicro true
          else s.bmStatusCtl }, false)

/-- `Seek()` (R254): the state after it, and whether it failed. -/
def seek (s : State) : State × Bool :=
  match s.disk with
  | none => (s.diag .imageRange 0, true)
  | some d =>
    applySeek s d s.effectiveSector
      (resolve d s.lbaPhysTable s.curTk s.blockNum s.effectiveSector)

/-- The bytes of one sector of the current zone (R233, D22). -/
def State.sectorSize (s : State) : Nat := secSize16 s.bmZone

/-- The sector at `bm_track_offset` lies inside the image (R77, R233). -/
def State.sectorInImage (s : State) (d : Disk) : Bool :=
  decide (s.bmTrackOffset.toNat + s.sectorSize ≤ d.size)

/-- `SectorRead()` (R233) after a seek that failed or not. -/
def sectorRead (s : State) (failed : Bool) : State :=
  match s.disk with
  | none => s.diag .imageRange s.bmTrackOffset
  | some d =>
    if failed || !s.sectorInImage d then s.diag .imageRange s.bmTrackOffset
    else
      { s with
        dsBuf := Memory.writeBytes s.dsBuf (fun i => i)
          (fun i => Memory.read d.data (s.bmTrackOffset.toNat + i)) s.sectorSize }

/-- `SectorWrite()` (R234) after a seek that failed or not; it notes a write of the system data (R376). -/
def sectorWrite (s : State) (failed : Bool) : State :=
  match s.disk with
  | none => s.diag .imageRange s.bmTrackOffset
  | some d =>
    if failed || !s.sectorInImage d then s.diag .imageRange s.bmTrackOffset
    else
      { s with
        disk := some { d with
          data := Memory.writeBytes d.data (fun i => s.bmTrackOffset.toNat + i)
            (fun i => Memory.read s.dsBuf i) s.sectorSize }
        sysDataWritten := s.sysDataWritten || overSystemData d s.bmTrackOffset.toNat s.sectorSize }

/-- The seek and the sector read of one step. -/
def seekAndRead (s : State) : State := sectorRead (seek s).1 (seek s).2

/-- The seek and the sector write of one step. -/
def seekAndWrite (s : State) : State := sectorWrite (seek s).1 (seek s).2

/-- The write direction (R223 to R226); `c` is the sector index at the start of the step. -/
def writeBranch (s : State) : State :=
  let c := s.curSector.toNat
  if c = 0 then
    { s with curSector := 1 }.putStatus param.stDataRq true
  else if c ≤ 84 then
    { seekAndWrite s with curSector := s.curSector + 1 }.putStatus param.stDataRq true
  else if c = 85 then
    if s.continueBlock then
      ({ seekAndWrite s with curSector := 1, bmBlock := !s.bmBlock }.putBms param.bmsBlock false).putStatus
        param.stDataRq true
    else
      { seekAndWrite s with curSector := 86 }.putBms param.bmsRunning false
  else s.diag .writeOverrun s.curSector

/-- The track-6 quirk's condition (R227); with no disk it does not fire (U5, D47; log 30). -/
def quirk (s : State) : Bool :=
  (s.curTk &&& param.tk6Mask) == Config.quirkTrack && !s.bmBlock &&
    (match s.disk with
      | some d => !d.dev
      | none => false)

/-- The zero-fill of one error-correction sector, k = 0..3 (R229; log 26). -/
def zeroFillC2 (m : Memory) (k : Nat) : Memory :=
  Memory.writeBytes m (fun i => 256 * k + i) (fun _ => 0) 256

/-- The read direction (R227 to R231). -/
def readBranch (s : State) : State :=
  let c := s.curSector.toNat
  if quirk s then
    (s.putStatus param.stDataRq false).putBms param.bmsMicro true
  else if c ≤ 84 then
    { seekAndRead s with curSector := s.curSector + 1 }.putStatus param.stDataRq true
  else if c ≤ 88 then
    { s with
      c2Buf := zeroFillC2 s.c2Buf (c - Config.sectorsPerBlock)
      curSector := s.curSector + 1
      cmdStatus := if c = 88 then putBit s.cmdStatus param.stC2Xfer true else s.cmdStatus }
  else if c = Config.gapSector then
    if s.continueBlock then
      { s with curSector := 0, bmBlock := !s.bmBlock }.putBms param.bmsBlock false
    else
      { s with curSector := 90 }.putBms param.bmsRunning false
  else s.diag .readOverrun s.curSector

/-- `BMStep()` (R220 to R222, R232). -/
def bmStep (s : State) : State :=
  if s.running then
    (if s.bmWrite then writeBranch s else readBranch s).setIrq .bm
  else s

/-- `STEP` (R220): the explicit restart by the bus. -/
def execStep (s : State) : Host.Outcome State Fault Refusal := .next (bmStep s)

end Sys2Proof.Machine
end

