-- ==== Sys2Proof/Machine/BmControl.lean ====
section
/-! DEFINITION. The BM control write (42_bm_control.md): six parts in a fixed order (R200), each its own definition,
and the rows of the table that name a component: a control word that holds the component's bits, written whole. -/

namespace Sys2Proof.Machine

/-- Part 1, start-sector decode (R201). -/
def bmPartSector (v : Word) (s : State) : State :=
  if bmcSector v = Config.startByteBlock0 then { s with bmBlock := false, curSector := 0 }
  else if bmcSector v = Config.startByteBlock1 then { s with bmBlock := true, curSector := 0 }
  else s.diag .startSector ((bmcSector v).setWidth 32)

/-- Part 2, mecha reset (R202). -/
def bmPartMechaRst (v : Word) (s : State) : State :=
  if v.getLsbD param.bmcMechaRst then s.putStatus param.stMechaInt false else s

/-- Part 3, begin block transfer (R203). -/
def bmPartBlkTrans (v : Word) (s : State) : State :=
  if v.getLsbD param.bmcBlkTrans then s.putBms param.bmsBlock true else s

/-- The BM reset proper (R204, R362). -/
def bmReset (s : State) : State :=
  { s with
    bmResetHeld := false
    cmdStatus := putBit (putBit (putBit (putBit s.cmdStatus param.stDataRq false)
      param.stBmErr false) param.stC2Xfer false) param.stBmInt false
    bmStatusCtl := 0
    curSector := 0
    bmBlock := false }

/-- Part 4, reset level and edge (R204). -/
def bmPartReset (v : Word) (s : State) : State :=
  if v.getLsbD param.bmcReset then { s with bmResetHeld := true }
  else if s.bmResetHeld then bmReset s
  else s

/-- Part 5, line check (R205). -/
def bmPartLine (s : State) : State := s.updateIrqLine

/-- The latched direction and the requested manager mode disagree (R206, D37): mode 1 is read. -/
def modeMismatch (v : Word) (s : State) : Bool := v.getLsbD param.bmcMngrMode == s.bmWrite

/-- Part 6, start (R206). -/
def bmPartStart (v : Word) (s : State) : State :=
  if v.getLsbD param.bmcStart then
    bmStep ((s.diagIf (modeMismatch v s) .bmModeMismatch v).putBms param.bmsRunning true)
  else s

/-- The control write without its start: parts 1 to 5 (R200). -/
def bmControlUpToLine (v : Word) (s : State) : State :=
  bmPartLine (bmPartReset v (bmPartBlkTrans v (bmPartMechaRst v (bmPartSector v s))))

/-- `WR BM_STATUS_CTL, v`: the six parts in order, each on the state the parts before it left (R200). -/
def bmControlWrite (v : Word) (s : State) : State := bmPartStart v (bmControlUpToLine v s)

/-- `WR BM_STATUS_CTL, v` (R145, R200). -/
def execWrBmStatusCtl (v : Word) (s : State) : Host.Outcome State Fault Refusal :=
  .next (bmControlWrite v s)

/-- `BMCTL SECTOR(0x00)` (R201 in R200). -/
def execBmctlSector00 (hi : BitVec 8) (lo : BitVec 16) (s : State) : Host.Outcome State Fault Refusal :=
  .next (bmControlWrite (controlWordSector Config.startByteBlock0 (hi ++ lo)) s)

/-- `BMCTL SECTOR(0x5A)` (R201 in R200). -/
def execBmctlSector5A (hi : BitVec 8) (lo : BitVec 16) (s : State) : Host.Outcome State Fault Refusal :=
  .next (bmControlWrite (controlWordSector Config.startByteBlock1 (hi ++ lo)) s)

/-- `BMCTL SECTOR(other)` (R201 in R200). -/
def execBmctlSectorOther (hi : BitVec 8) (sector : BitVec 8) (lo : BitVec 16) (s : State) :
    Host.Outcome State Fault Refusal :=
  .next (bmControlWrite (controlWordSector sector (hi ++ lo)) s)

/-- `BMCTL MECHA_RST` (R202 in R200). -/
def execBmctlMechaRst (hi : BitVec 7) (lo : BitVec 24) (s : State) : Host.Outcome State Fault Refusal :=
  .next (bmControlWrite (controlWordBit param.bmcMechaRst true (hi ++ lo)) s)

/-- `BMCTL BLK_TRANS` (R203 in R200). -/
def execBmctlBlkTrans (hi : BitVec 6) (lo : BitVec 25) (s : State) : Host.Outcome State Fault Refusal :=
  .next (bmControlWrite (controlWordBit param.bmcBlkTrans true (hi ++ lo)) s)

/-- `BMCTL RESET` (R204 in R200): the level asserted. -/
def execBmctlReset (hi : BitVec 3) (lo : BitVec 28) (s : State) : Host.Outcome State Fault Refusal :=
  .next (bmControlWrite (controlWordBit param.bmcReset true (hi ++ lo)) s)

/-- `BMCTL RESET release` (R204 in R200): the level not asserted. -/
def execBmctlResetRelease (hi : BitVec 3) (lo : BitVec 28) (s : State) : Host.Outcome State Fault Refusal :=
  .next (bmControlWrite (controlWordBit param.bmcReset false (hi ++ lo)) s)

/-- `BMCTL START` (R206 in R200). -/
def execBmctlStart (lo : BitVec 31) (s : State) : Host.Outcome State Fault Refusal :=
  .next (bmControlWrite (controlWordBit param.bmcStart true lo) s)

end Sys2Proof.Machine
end

