-- ==== Sys2Proof/Machine/Commands.lean ====
section
/-! DEFINITION. The commands (41_commands.md): the effect of each, then `SetIrq(MECHA)`, always and last (R160). -/

namespace Sys2Proof.Machine

/-- The end of every command write: `SetIrq(MECHA)` (R160). -/
def finishCommand (s : State) : State := s.setIrq .mecha

/-- A command with no implemented effect: logged, accepted (R161, R181, R325). -/
def unimplementedCommand (op : BitVec 8) (ignored : BitVec 24) (s : State) : State :=
  finishCommand (s.diag .cmdUnimpl (cmdWord op ignored))

/-- The effect of the two seek commands on the latches (R162, R163): the track from `DATA`, the direction from the
command word. -/
def latchSeek (word : Word) (s : State) : State :=
  { s with
    curTk := (s.data >>> param.tkShift) ||| param.tkLock
    bmWrite := word.getLsbD param.cmdDirBit }

/-- A read-RTC command (R177 to R179): one sample, then the pair of fields in `DATA`. -/
def readRtc (pair : CalendarFields → Word) (s : State) : State :=
  finishCommand { s.rtcSample with data := pair s.rtcSample.calendar }

/-- The year and month pair (R177). -/
def yearMonthPair (c : CalendarFields) : Word := time2data c.year c.month1

/-- The day and hour pair (R178). -/
def dayHourPair (c : CalendarFields) : Word := time2data c.day1 c.hour.val

/-- The minute and second pair (R179). -/
def minSecPair (c : CalendarFields) : Word := time2data c.minute.val c.second.val

/-- `NOOP` (R161). -/
def execNoop (ignored : BitVec 24) (s : State) : Host.Outcome State Fault Refusal :=
  .next (unimplementedCommand param.opNoop ignored s)

/-- `SEEK_READ` (R162). -/
def execSeekRead (ignored : BitVec 24) (s : State) : Host.Outcome State Fault Refusal :=
  .next (finishCommand (latchSeek (cmdWord param.opSeekRead ignored) s))

/-- `SEEK_WRITE` (R163). -/
def execSeekWrite (ignored : BitVec 24) (s : State) : Host.Outcome State Fault Refusal :=
  .next (finishCommand (latchSeek (cmdWord param.opSeekWrite ignored) s))

/-- `RECALIBRATE` (R164). -/
def execRecalibrate (ignored : BitVec 24) (s : State) : Host.Outcome State Fault Refusal :=
  .next (unimplementedCommand param.opRecalibrate ignored s)

/-- `SLEEP` (R165): there is no sleep state (R342). -/
def execSleep (ignored : BitVec 24) (s : State) : Host.Outcome State Fault Refusal :=
  .next (unimplementedCommand param.opSleep ignored s)

/-- `START` (R166). -/
def execStart (ignored : BitVec 24) (s : State) : Host.Outcome State Fault Refusal :=
  .next (unimplementedCommand param.opStart ignored s)

/-- `CLR_DSK_CHNG` (R167). -/
def execClrDskChng (_ignored : BitVec 24) (s : State) : Host.Outcome State Fault Refusal :=
  .next (finishCommand (s.putStatus param.stDiskChng false))

/-- `CLR_RESET` (R168). -/
def execClrReset (_ignored : BitVec 24) (s : State) : Host.Outcome State Fault Refusal :=
  .next (finishCommand ((s.putStatus param.stRstState false).putStatus param.stDiskChng false))

/-- `READ_VERSION` (R169). -/
def execReadVersion (ignored : BitVec 24) (s : State) : Host.Outcome State Fault Refusal :=
  .next (unimplementedCommand param.opReadVersion ignored s)

/-- `SET_DISK_TYPE` (R170): logged with `DATA`, no other effect. -/
def execSetDiskType (_ignored : BitVec 24) (s : State) : Host.Outcome State Fault Refusal :=
  .next (finishCommand (s.diag .setDiskType s.data))

/-- `REQUEST_STATUS` (R171). -/
def execRequestStatus (ignored : BitVec 24) (s : State) : Host.Outcome State Fault Refusal :=
  .next (unimplementedCommand param.opRequestStatus ignored s)

/-- `STANDBY` (R172). -/
def execStandby (ignored : BitVec 24) (s : State) : Host.Outcome State Fault Refusal :=
  .next (unimplementedCommand param.opStandby ignored s)

/-- `IDX_LOCK_RETRY` (R173). -/
def execIdxLockRetry (ignored : BitVec 24) (s : State) : Host.Outcome State Fault Refusal :=
  .next (unimplementedCommand param.opIdxLockRetry ignored s)

/-- `SET_YEAR_MONTH` (R174): the clock is not set. -/
def execSetYearMonth (ignored : BitVec 24) (s : State) : Host.Outcome State Fault Refusal :=
  .next (unimplementedCommand param.opSetYearMonth ignored s)

/-- `SET_DAY_HOUR` (R175). -/
def execSetDayHour (ignored : BitVec 24) (s : State) : Host.Outcome State Fault Refusal :=
  .next (unimplementedCommand param.opSetDayHour ignored s)

/-- `SET_MIN_SEC` (R176). -/
def execSetMinSec (ignored : BitVec 24) (s : State) : Host.Outcome State Fault Refusal :=
  .next (unimplementedCommand param.opSetMinSec ignored s)

/-- `GET_YEAR_MONTH` (R177). -/
def execGetYearMonth (_ignored : BitVec 24) (s : State) : Host.Outcome State Fault Refusal :=
  .next (readRtc yearMonthPair s)

/-- `GET_DAY_HOUR` (R178). -/
def execGetDayHour (_ignored : BitVec 24) (s : State) : Host.Outcome State Fault Refusal :=
  .next (readRtc dayHourPair s)

/-- `GET_MIN_SEC` (R179). -/
def execGetMinSec (_ignored : BitVec 24) (s : State) : Host.Outcome State Fault Refusal :=
  .next (readRtc minSecPair s)

/-- `FEATURE_INQ` (R180). -/
def execFeatureInq (_ignored : BitVec 24) (s : State) : Host.Outcome State Fault Refusal :=
  .next (finishCommand { s with data := 0 })

/-- `CMD_OTHER` (R181): an opcode that no rule names. -/
def execCmdOther (op : BitVec 8) (ignored : BitVec 24) (s : State) : Host.Outcome State Fault Refusal :=
  .next (unimplementedCommand op ignored s)

/-- `WR CMD_STATUS, v` (R144, R160): the word is not stored; its opcode selects the effect. -/
def execWrCmdStatus (v : Word) (s : State) : Host.Outcome State Fault Refusal :=
  let op := cmdOp v
  let r := cmdRest v
  if op = param.opSeekRead then execSeekRead r s
  else if op = param.opSeekWrite then execSeekWrite r s
  else if op = param.opClrDskChng then execClrDskChng r s
  else if op = param.opClrReset then execClrReset r s
  else if op = param.opSetDiskType then execSetDiskType r s
  else if op = param.opGetYearMonth then execGetYearMonth r s
  else if op = param.opGetDayHour then execGetDayHour r s
  else if op = param.opGetMinSec then execGetMinSec r s
  else if op = param.opFeatureInq then execFeatureInq r s
  else execCmdOther op r s

end Sys2Proof.Machine
end

