-- ==== Sys2Proof/Machine/Mmio.lean ====
section
/-! DEFINITION. MMIO reads and writes (40_register_access.md), but for `WR CMD_STATUS` (Commands.lean) and
`WR BM_STATUS_CTL` (BmControl.lean). -/

namespace Sys2Proof.Machine

/-- `RD DATA` (R131). -/
def execRdData (s : State) : Host.Outcome State Fault Refusal := .next (s.returnValue s.data)

/-- Step 3 of the status read (R132): with the block-transfer interrupt pending and the sector index past the data
sectors, acknowledge it and step. -/
def pollResume (s : State) : State :=
  if s.bmInt && decide (param.pollResumeMinSector ≤ s.curSector.toNat) then bmStep (s.clrIrq .bm) else s

/-- The word a status read returns, by the sample point (R132, D14; log 20). -/
def statusSample (s : State) : Word :=
  match param.statusSamplePoint with
  | .beforeRefresh => s.cmdStatus
  | .afterRefresh => s.refreshDiskPres.cmdStatus
  | .afterStep => (pollResume s.refreshDiskPres).cmdStatus

/-- `RD CMD_STATUS` (R132): refresh, sample, acknowledge and step. -/
def execRdCmdStatus (s : State) : Host.Outcome State Fault Refusal :=
  .next ((pollResume s.refreshDiskPres).returnValue (statusSample s))

/-- `RD CUR_TK` (R133). -/
def execRdCurTk (s : State) : Host.Outcome State Fault Refusal := .next (s.returnValue s.curTk)

/-- `RD BM_STATUS_CTL` (R134). -/
def execRdBmStatusCtl (s : State) : Host.Outcome State Fault Refusal := .next (s.returnValue s.bmStatusCtl)

/-- `RD CUR_SECTOR` (R135). -/
def execRdCurSector (s : State) : Host.Outcome State Fault Refusal := .next (s.returnValue s.curSector)

/-- `RD HARD_RESET` (R136): 0, the register stores nothing. -/
def execRdHardReset (s : State) : Host.Outcome State Fault Refusal := .next (s.returnValue 0)

/-- `RD HOST_SECBYTE` (R137). -/
def execRdHostSecbyte (s : State) : Host.Outcome State Fault Refusal := .next (s.returnValue s.hostSecbyte)

/-- `RD SEC_BYTE` (R138). -/
def execRdSecByte (s : State) : Host.Outcome State Fault Refusal := .next (s.returnValue s.secByte)

/-- `RD ID_REG` (R139). -/
def execRdIdReg (s : State) : Host.Outcome State Fault Refusal := .next (s.returnValue s.idReg)

/-- `RD MSEQ[k]` (R140). -/
def execRdMseq (k : Fin 16) (s : State) : Host.Outcome State Fault Refusal :=
  .next (s.returnValue (s.mseqRam.get k))

/-- `RD UNDEF` (R141): 0, with a diagnostic. -/
def execRdUndef (address : Word) (s : State) : Host.Outcome State Fault Refusal :=
  .next ((s.diag .addrRead address).returnValue 0)

/-- `WR DATA, v` (R143). -/
def execWrData (v : Word) (s : State) : Host.Outcome State Fault Refusal := .next { s with data := v }

/-- A host write that the source does not describe: a diagnostic, no state change (R149, U2; log 27). -/
def unspecifiedWrite (r : Reg) (s : State) : State := s.diag .writeUnspec (regAddress r)

/-- `WR CUR_TK, v` (R149). -/
def execWrCurTk (_v : Word) (s : State) : Host.Outcome State Fault Refusal := .next (unspecifiedWrite .curTk s)

/-- `WR CUR_SECTOR, v` (R149). -/
def execWrCurSector (_v : Word) (s : State) : Host.Outcome State Fault Refusal :=
  .next (unspecifiedWrite .curSector s)

/-- `WR ID_REG, v` (R149). -/
def execWrIdReg (_v : Word) (s : State) : Host.Outcome State Fault Refusal := .next (unspecifiedWrite .idReg s)

/-- `WR HARD_RESET, v` (R146, R361): `RST_STATE` is set whatever the value. -/
def execWrHardReset (v : Word) (s : State) : Host.Outcome State Fault Refusal :=
  .next ((s.diagIf (decide (v ≠ param.hardResetMagic)) .hardResetMagic v).putStatus param.stRstState true)

/-- `WR HOST_SECBYTE, v` (R147): stored; the comparison drives a diagnostic only (log 18). -/
def execWrHostSecbyte (v : Word) (s : State) : Host.Outcome State Fault Refusal :=
  .next ({ s with hostSecbyte := v }.diagIf (decide (v ≠ Config.expectedHostSecByte s.bmZone)) .secbyteMismatch v)

/-- `WR SEC_BYTE, v` (R148). -/
def execWrSecByte (v : Word) (s : State) : Host.Outcome State Fault Refusal :=
  .next ({ s with secByte := v }.diagIf (decide (v ≠ Config.expectedSecByte s.bmZone)) .secbyteMismatch v)

/-- `WR MSEQ[k], v` (R150). -/
def execWrMseq (k : Fin 16) (v : Word) (s : State) : Host.Outcome State Fault Refusal :=
  .next { s with mseqRam := s.mseqRam.set k.val v k.isLt }

/-- `WR UNDEF` (R151): nothing, with a diagnostic. -/
def execWrUndef (address : Word) (_v : Word) (s : State) : Host.Outcome State Fault Refusal :=
  .next (s.diag .addrWrite address)

end Sys2Proof.Machine
end

