-- ==== Sys2Proof/Machine/Ports.lean ====
section
/-! DEFINITION. The port events but `STEP`: the completion signal, the DMA transfers, attachment and power-on
(45_buffers_dma_rtc.md, 70_reset_and_hazards.md R360). -/

namespace Sys2Proof.Machine

/-- `CARTADDR(address)` (R290). -/
def execCartAddr (address : Word) (s : State) : Host.Outcome State Fault Refusal :=
  .next (match dmaRange s.rom.size address with
    | .c2 => ((s.putStatus param.stC2Xfer false).putStatus param.stBmErr false).clrIrq .bm
    | .ds => ((s.putStatus param.stDataRq false).putStatus param.stBmErr false).clrIrq .bm
    | .rom | .nothing => s)

/-- `DMA_COST(n)` (R294): K·n for the free ratio K, rounded up or down where it is no whole number (log 19). -/
def transferCost (n : Nat) : Nat :=
  let scaled := n * Config.dmaCostNum
  let divisor := Config.dmaCostDen + 1
  scaled / divisor + (if scaled % divisor ≠ 0 ∧ Config.dmaCostUp n = true then 1 else 0)

/-- The cost a DMA transfer returns (R291, R292, R294). -/
def State.returnCost (s : State) (length : Nat) : State := { s with dmaCost := some (transferCost length) }

/-- Host memory after `n` bytes arrive from the block, byte i from `src i` (R291). -/
def State.storeToHost (s : State) (dram : Nat) (src : Nat → Byte) (n : Nat) : State :=
  { s with hostMem := Memory.writeBytes s.hostMem (hostIndex dram) src n }

/-- `InvalidateCode(address, length)` (R291, R303). -/
def State.invalidateCode (s : State) (dram length : Nat) : State :=
  { s with invalidations := s.invalidations ++ [(dram, length)] }

/-- How many bytes a ROM transfer moves: those whose index lies in the ROM (R291, U6; log 24). -/
def romBytes (s : State) (cart : Word) (length : Nat) : Nat :=
  min length (s.rom.size - romOffset cart)

/-- `DMA_TO_HOST(cart_addr, dram_addr, length)` (R291). -/
def execDmaToHost (cart : Word) (dram length : Nat) (s : State) : Host.Outcome State Fault Refusal :=
  .next ((match dmaRange s.rom.size cart with
    | .c2 => (s.storeToHost dram (fun i => Memory.read s.c2Buf (c2Index cart i)) length).invalidateCode dram length
    | .ds => (s.storeToHost dram (fun i => Memory.read s.dsBuf (dsIndex cart i)) length).invalidateCode dram length
    | .rom =>
      (s.storeToHost dram (fun i => Memory.read s.rom.data (romIndex cart i))
        (romBytes s cart length)).invalidateCode dram length
    | .nothing => s.diag .dmaRange cart).returnCost length)

/-- `DMA_FROM_HOST(cart_addr, dram_addr, length)` (R292, R293). -/
def execDmaFromHost (cart : Word) (dram length : Nat) (s : State) : Host.Outcome State Fault Refusal :=
  .next ((match dmaRange s.rom.size cart with
    | .c2 =>
      { s with
        c2Buf := Memory.writeBytes s.c2Buf (c2Index cart)
          (fun i => Memory.read s.hostMem (hostIndex dram i)) length }
    | .ds =>
      { s with
        dsBuf := Memory.writeBytes s.dsBuf (dsIndex cart)
          (fun i => Memory.read s.hostMem (hostIndex dram i)) length }
    | .rom => s.diag .dmaRomWrite cart
    | .nothing => s.diag .dmaRange cart).returnCost length)

/-- `ATTACH(image)` (R300): the image brings its metadata as read now (R376). -/
def execAttach (image : Disk) (s : State) : Host.Outcome State Fault Refusal :=
  .next { s with disk := some image, lbaPhysTable := tableFor image s.lbaPhysTable, sysDataWritten := false }

/-- `DETACH` (R301). -/
def execDetach (s : State) : Host.Outcome State Fault Refusal := .next { s with disk := none }

/-- The attachment as power-on finds it: the same image, and for an `LBA` image whose system data was overwritten the
metadata that its system data now holds, free values (R376; log 44). -/
def diskAtPowerOn (s : State) : Option Disk :=
  s.disk.map fun d =>
    if d.format = .lba ∧ s.sysDataWritten = true then withSystemData d (Config.systemData s.oracle) else d

/-- The registers, latches and memories as power-on leaves them (R360); the clock pair is left unspecified there
and takes free values here (log 14). -/
def powerOnState (s : State) : State :=
  { s with
    data := 0
    cmdStatus := putBit (putBit 0 param.stRstState true) param.stDiskPres s.diskAttached
    curTk := 0
    bmStatusCtl := 0
    curSector := 0
    hardReset := 0
    hostSecbyte := 0
    secByte := 0
    idReg := param.hwId
    bmWrite := false
    bmBlock := false
    bmZone := 0
    bmTrackOffset := 0
    bmResetHeld := false
    c2Buf := []
    dsBuf := []
    mseqRam := Vector.replicate 16 0
    rtcNow := Config.powerOnNow s.oracle
    rtcLast := Config.powerOnLast s.oracle
    oracle := s.oracle + 1
    disk := diskAtPowerOn s
    lbaPhysTable := match diskAtPowerOn s with
      | some d => tableFor d s.lbaPhysTable
      | none => s.lbaPhysTable
    sysDataWritten := false }

/-- `POWERON` (R360): then the line follows the two cleared sources. -/
def execPowerOn (s : State) : Host.Outcome State Fault Refusal := .next (powerOnState s).updateIrqLine

end Sys2Proof.Machine
end

