-- ==== Sys2Proof/Machine/Dispatch.lean ====
section
/-! DEFINITION. One arm per operation: its meaning. -/

namespace Sys2Proof.Machine

-- Each arm is one direct call of the operation's own meaning.
def exec (i : Instr) (s : State) : Host.Outcome State Fault Refusal :=
  match i with
  | .noop ignored => Sys2Proof.Machine.execNoop ignored s
  | .seekRead ignored => Sys2Proof.Machine.execSeekRead ignored s
  | .seekWrite ignored => Sys2Proof.Machine.execSeekWrite ignored s
  | .recalibrate ignored => Sys2Proof.Machine.execRecalibrate ignored s
  | .sleep ignored => Sys2Proof.Machine.execSleep ignored s
  | .start ignored => Sys2Proof.Machine.execStart ignored s
  | .clrDskChng ignored => Sys2Proof.Machine.execClrDskChng ignored s
  | .clrReset ignored => Sys2Proof.Machine.execClrReset ignored s
  | .readVersion ignored => Sys2Proof.Machine.execReadVersion ignored s
  | .setDiskType ignored => Sys2Proof.Machine.execSetDiskType ignored s
  | .requestStatus ignored => Sys2Proof.Machine.execRequestStatus ignored s
  | .standby ignored => Sys2Proof.Machine.execStandby ignored s
  | .idxLockRetry ignored => Sys2Proof.Machine.execIdxLockRetry ignored s
  | .setYearMonth ignored => Sys2Proof.Machine.execSetYearMonth ignored s
  | .setDayHour ignored => Sys2Proof.Machine.execSetDayHour ignored s
  | .setMinSec ignored => Sys2Proof.Machine.execSetMinSec ignored s
  | .getYearMonth ignored => Sys2Proof.Machine.execGetYearMonth ignored s
  | .getDayHour ignored => Sys2Proof.Machine.execGetDayHour ignored s
  | .getMinSec ignored => Sys2Proof.Machine.execGetMinSec ignored s
  | .featureInq ignored => Sys2Proof.Machine.execFeatureInq ignored s
  | .cmdOther op ignored => Sys2Proof.Machine.execCmdOther op ignored s
  | .rdData => Sys2Proof.Machine.execRdData s
  | .rdCmdStatus => Sys2Proof.Machine.execRdCmdStatus s
  | .rdCurTk => Sys2Proof.Machine.execRdCurTk s
  | .rdBmStatusCtl => Sys2Proof.Machine.execRdBmStatusCtl s
  | .rdCurSector => Sys2Proof.Machine.execRdCurSector s
  | .rdHardReset => Sys2Proof.Machine.execRdHardReset s
  | .rdHostSecbyte => Sys2Proof.Machine.execRdHostSecbyte s
  | .rdSecByte => Sys2Proof.Machine.execRdSecByte s
  | .rdIdReg => Sys2Proof.Machine.execRdIdReg s
  | .wrData value => Sys2Proof.Machine.execWrData value s
  | .wrCmdStatus value => Sys2Proof.Machine.execWrCmdStatus value s
  | .wrCurTk value => Sys2Proof.Machine.execWrCurTk value s
  | .wrBmStatusCtl value => Sys2Proof.Machine.execWrBmStatusCtl value s
  | .wrCurSector value => Sys2Proof.Machine.execWrCurSector value s
  | .wrHardReset value => Sys2Proof.Machine.execWrHardReset value s
  | .wrHostSecbyte value => Sys2Proof.Machine.execWrHostSecbyte value s
  | .wrSecByte value => Sys2Proof.Machine.execWrSecByte value s
  | .wrIdReg value => Sys2Proof.Machine.execWrIdReg value s
  | .bmctlSector00 hi lo => Sys2Proof.Machine.execBmctlSector00 hi lo s
  | .bmctlSector5A hi lo => Sys2Proof.Machine.execBmctlSector5A hi lo s
  | .bmctlSectorOther hi sector lo => Sys2Proof.Machine.execBmctlSectorOther hi sector lo s
  | .bmctlMechaRst hi lo => Sys2Proof.Machine.execBmctlMechaRst hi lo s
  | .bmctlBlkTrans hi lo => Sys2Proof.Machine.execBmctlBlkTrans hi lo s
  | .bmctlReset hi lo => Sys2Proof.Machine.execBmctlReset hi lo s
  | .bmctlResetRelease hi lo => Sys2Proof.Machine.execBmctlResetRelease hi lo s
  | .bmctlStart lo => Sys2Proof.Machine.execBmctlStart lo s
  | .rdMseq k => Sys2Proof.Machine.execRdMseq k s
  | .wrMseq k value => Sys2Proof.Machine.execWrMseq k value s
  | .rdUndef address => Sys2Proof.Machine.execRdUndef address s
  | .wrUndef address value => Sys2Proof.Machine.execWrUndef address value s
  | .step => Sys2Proof.Machine.execStep s
  | .cartAddr address => Sys2Proof.Machine.execCartAddr address s
  | .dmaToHost cartAddr dramAddr length => Sys2Proof.Machine.execDmaToHost cartAddr dramAddr length s
  | .dmaFromHost cartAddr dramAddr length => Sys2Proof.Machine.execDmaFromHost cartAddr dramAddr length s
  | .attach image => Sys2Proof.Machine.execAttach image s
  | .detach => Sys2Proof.Machine.execDetach s
  | .powerOn => Sys2Proof.Machine.execPowerOn s

end Sys2Proof.Machine
end

