-- ==== Sys2Proof/Machine/Step.lean ====
section
/-! DEFINITION. One step: the oldest pending operation is decoded and performed whole (R6, R7, R78). -/

namespace Sys2Proof.Machine

/-- One step of the machine. With no operation pending nothing happens: the device "never runs autonomously
between steps" (R6, R45). An operation outside the spec's domain ends in a refusal by name (R74, R253). -/
def step (s : State) : Host.Outcome State Fault Refusal :=
  match s.takePending with
  | none => .next s
  | some (op, t) =>
    match decode op with
    | .ok i => exec i t
    | .error e => .refused (refusalOf e)

/-- The state with a table word's operation placed where the next step takes it (log 1, log 2). -/
def State.withFetchWord (s : State) (nbits w : Nat) : State := s.place (tableOperation nbits w)

end Sys2Proof.Machine
end

