-- ==== Sys2Proof/Safety.lean ====
section
/-! DEFINITION. The terms that claims use: the invariant of R48 with the canonical form of the memories, and the
status words outside their named fields. -/

namespace Sys2Proof.Machine

/-- The named bits of `CMD_STATUS` (R23). -/
def statusMask : Word :=
  (1#32 <<< param.stDataRq) ||| (1#32 <<< param.stC2Xfer) ||| (1#32 <<< param.stBmErr) |||
  (1#32 <<< param.stBmInt) ||| (1#32 <<< param.stMechaInt) ||| (1#32 <<< param.stDiskPres) |||
  (1#32 <<< param.stRstState) ||| (1#32 <<< param.stDiskChng)

/-- The named bits of `BM_STATUS_CTL` (R25). -/
def bmStatusMask : Word :=
  (1#32 <<< param.bmsRunning) ||| (1#32 <<< param.bmsMicro) ||| (1#32 <<< param.bmsBlock)

/-- A memory in canonical form with every listed address below a size. -/
def Memory.ok (size : Nat) (m : Memory) : Bool := Memory.wf m && Memory.below size m

/-- The attachment's part of the invariant: the image is well formed, and the reverse table is that of its type and
defect data for an `LBA` image (R48). -/
def State.diskOk (s : State) : Bool :=
  match s.disk with
  | none => true
  | some d => d.wellFormed && (d.format != .lba || s.lbaPhysTable == buildTable d)

/-- The invariant of R48 that every operation keeps, with the bound of R45 on the sector index; the ranges of
`bm_block`, `bm_zone` and `bm_write` are in their types. Host memory has no size (log 22). -/
structure State.Inv (s : State) : Prop where
  line : s.irqLine = (s.mechaInt || s.bmInt)
  cur_sector : s.curSector.toNat ≤ 90
  status_bits : s.cmdStatus &&& ~~~statusMask = 0
  bm_bits : s.bmStatusCtl &&& ~~~bmStatusMask = 0
  hard_reset : s.hardReset = 0
  id_reg : s.idReg = param.hwId
  c2_buf : Memory.ok Config.c2BufSize s.c2Buf = true
  ds_buf : Memory.ok Config.dsBufSize s.dsBuf = true
  host_mem : Memory.wf s.hostMem = true
  disk : s.diskOk = true

end Sys2Proof.Machine
end

