-- ==== Sys2Proof/Certificates/Slice0/Obligations.lean ====
section
/-! DEFINITION. The statements for the provers, and before them the few words they share. An equation
`exec i s = .next { s with … }` says the whole next state: every field it does not name is unchanged, outputs
included. Bits and fields go by the names of R23, R25 and R108; a statement that rests on a choice of the spec or
of the model says so and names it. -/

namespace Sys2Proof.Spec

open Sys2Proof.Machine

/-- The line driven to a level, with the call that a change makes (R330, R303; one call for a change: log 33). -/
def lineTo (level : Bool) (s : State) : State :=
  { s with
    irqLine := level
    lineCalls := if level = s.irqLine then s.lineCalls else s.lineCalls ++ [level] }

/-- What ends every command: `MECHA_INT` set and the line high (R160). -/
def commandDone (s : State) : State :=
  lineTo true { s with cmdStatus := putBit s.cmdStatus param.stMechaInt true }

/-- What ends every running step: `BM_INT` set and the line high (R232). -/
def stepDone (s : State) : State :=
  lineTo true { s with cmdStatus := putBit s.cmdStatus param.stBmInt true }

/-- The block-transfer interrupt acknowledged: `BM_INT` clear, the line left to `MECHA_INT` (R329, R330). -/
def bmAcknowledged (s : State) : State :=
  lineTo s.mechaInt { s with cmdStatus := putBit s.cmdStatus param.stBmInt false }

/-- One diagnostic appended (R321). -/
def logged (code : DiagCode) (info : Word) (s : State) : State :=
  { s with diags := s.diags ++ [{ code := code, info := info }] }

/-- The reset part of a control write acts: the level is not asserted and was held (R204). -/
def bmResets (v : Word) (s : State) : Bool := !v.getLsbD param.bmcReset && s.bmResetHeld

/-- `CMD_STATUS` after the mecha reset and the BM reset of a control write (R202, R204). -/
def controlledStatus (v : Word) (s : State) : Word :=
  let acked := if v.getLsbD param.bmcMechaRst then putBit s.cmdStatus param.stMechaInt false else s.cmdStatus
  if bmResets v s then
    putBit (putBit (putBit (putBit acked param.stDataRq false) param.stBmErr false) param.stC2Xfer false)
      param.stBmInt false
  else acked

/-- `BM_STATUS_CTL` after the continue flag and the BM reset of a control write (R203, R204). -/
def controlledFlags (v : Word) (s : State) : Word :=
  if bmResets v s then 0
  else if v.getLsbD param.bmcBlkTrans then putBit s.bmStatusCtl param.bmsBlock true
  else s.bmStatusCtl

/-- The whole effect of a control write without its start: the start-sector decode, the two interrupt sources,
the flags, the reset latch and the line (R201 to R205). -/
def controlled (v : Word) (s : State) : State :=
  let b : BitVec 8 := v.extractLsb' param.bmcSectorLsb 8
  lineTo ((controlledStatus v s).getLsbD param.stMechaInt || (controlledStatus v s).getLsbD param.stBmInt)
    { s with
      bmBlock := if bmResets v s then false else if b = 0x00 then false else if b = 0x5A then true else s.bmBlock
      curSector := if bmResets v s = true ∨ b = 0x00 ∨ b = 0x5A then 0 else s.curSector
      cmdStatus := controlledStatus v s
      bmStatusCtl := controlledFlags v s
      bmResetHeld := v.getLsbD param.bmcReset
      diags :=
        if b = 0x00 ∨ b = 0x5A then s.diags
        else s.diags ++ [{ code := .startSector, info := b.setWidth 32 }] }

/-- The state in which the start of a control write runs its step: `BMS_RUNNING` set, and a warning where the
requested manager mode (1 is read) disagrees with the latched direction (R206). -/
def started (v : Word) (s : State) : State :=
  { s with
    bmStatusCtl := putBit s.bmStatusCtl param.bmsRunning true
    diags :=
      if v.getLsbD param.bmcMngrMode = s.bmWrite then s.diags ++ [{ code := .bmModeMismatch, info := v }]
      else s.diags }

/-- The next state of a control write (R200): with the start bit, the step that `STEP` also runs comes last. -/
def controlResult (v : Word) (s : State) : State :=
  if v.getLsbD param.bmcStart then bmStep (started v (controlled v s)) else controlled v s

/-- The control word an operation writes to `BM_STATUS_CTL`, if it does. -/
def controlWordOf : Instr → Option Word
  | .wrBmStatusCtl v => some v
  | .bmctlSector00 hi lo => some (hi ++ 0x00#8 ++ lo)
  | .bmctlSector5A hi lo => some (hi ++ 0x5A#8 ++ lo)
  | .bmctlSectorOther hi b lo => some (hi ++ b ++ lo)
  | .bmctlMechaRst hi lo => some (hi ++ 1#1 ++ lo)
  | .bmctlBlkTrans hi lo => some (hi ++ 1#1 ++ lo)
  | .bmctlReset hi lo => some (hi ++ 1#1 ++ lo)
  | .bmctlResetRelease hi lo => some (hi ++ 0#1 ++ lo)
  | .bmctlStart lo => some (1#1 ++ lo)
  | _ => none

/-- The command word an operation writes to `CMD_STATUS`, if it does. -/
def commandWordOf : Instr → Option Word
  | .wrCmdStatus v => some v
  | .noop r => some (param.opNoop ++ r)
  | .seekRead r => some (param.opSeekRead ++ r)
  | .seekWrite r => some (param.opSeekWrite ++ r)
  | .recalibrate r => some (param.opRecalibrate ++ r)
  | .sleep r => some (param.opSleep ++ r)
  | .start r => some (param.opStart ++ r)
  | .clrDskChng r => some (param.opClrDskChng ++ r)
  | .clrReset r => some (param.opClrReset ++ r)
  | .readVersion r => some (param.opReadVersion ++ r)
  | .setDiskType r => some (param.opSetDiskType ++ r)
  | .requestStatus r => some (param.opRequestStatus ++ r)
  | .standby r => some (param.opStandby ++ r)
  | .idxLockRetry r => some (param.opIdxLockRetry ++ r)
  | .setYearMonth r => some (param.opSetYearMonth ++ r)
  | .setDayHour r => some (param.opSetDayHour ++ r)
  | .setMinSec r => some (param.opSetMinSec ++ r)
  | .getYearMonth r => some (param.opGetYearMonth ++ r)
  | .getDayHour r => some (param.opGetDayHour ++ r)
  | .getMinSec r => some (param.opGetMinSec ++ r)
  | .featureInq r => some (param.opFeatureInq ++ r)
  | .cmdOther op r => some (op ++ r)
  | _ => none

/-- The operation may run a sequencer step from a state (R220, R132): a `STEP` of a running sequencer, a control
write with the start bit, or a status read with the interrupt pending past the data sectors. -/
def maySequence (i : Instr) (s : State) : Prop :=
  (i = .step ∧ s.running = true) ∨
  (i = .rdCmdStatus ∧ s.running = true ∧ s.bmInt = true ∧ 86 ≤ s.curSector.toNat) ∨
  ∃ v, controlWordOf i = some v ∧ v.getLsbD param.bmcStart = true

/-- The control word holds the component that a row names (R108, R118). -/
def holdsComponent (w : Word) : BmPart → Prop
  | .sector00 => w.extractLsb' param.bmcSectorLsb 8 = 0x00
  | .sector5A => w.extractLsb' param.bmcSectorLsb 8 = 0x5A
  | .sectorOther => w.extractLsb' param.bmcSectorLsb 8 ≠ 0x00 ∧ w.extractLsb' param.bmcSectorLsb 8 ≠ 0x5A
  | .mechaRst => w.getLsbD param.bmcMechaRst = true
  | .blkTrans => w.getLsbD param.bmcBlkTrans = true
  | .reset => w.getLsbD param.bmcReset = true
  | .resetRelease => w.getLsbD param.bmcReset = false
  | .start => w.getLsbD param.bmcStart = true

/-- An address with a low bit set (R74). -/
def misaligned (a : Word) : Prop := a.getLsbD 0 = true ∨ a.getLsbD 1 = true

/-- The track-6 condition (R227; with no disk it does not hold: U5, log 30). -/
def track6 (s : State) : Prop :=
  s.curTk &&& 0x00001FFF = 6 ∧ s.bmBlock = false ∧ ∃ d, s.disk = some d ∧ d.dev = false

/-- The seek of a step finds a byte offset for effective sector e (R254 to R256). -/
def seekFinds (s : State) (d : Disk) (e : Nat) (zone : Fin 16) (off : Nat) (sysArea : Bool) : Prop :=
  s.disk = some d ∧ resolve d s.lbaPhysTable s.curTk s.blockNum e = .found zone off sysArea ∧ off < 2 ^ 32

/-- `BM_STATUS_CTL` after the structural cross-check of a seek (R258; its predicate is the spec's default: log 25). -/
def crossChecked (s : State) (d : Disk) (e off : Nat) (sysArea : Bool) : Word :=
  if e = 0 ∧ sysArea = true ∧ off ≠ d.sysOffset ∧ off ≠ d.idOffset then
    putBit s.bmStatusCtl param.bmsMicro true
  else s.bmStatusCtl

/-- What a write of n bytes at an offset leaves in the note that the system data was overwritten: the first 24 blocks
of the image, or the block at the recorded offset (R376; the extent is the model's: log 44). -/
def systemWritten (s : State) (d : Disk) (off n : Nat) : Bool :=
  s.sysDataWritten || decide (off < 24 * 19720 ∨ (off < d.sysOffset + 19720 ∧ d.sysOffset < off + n))

/-- The bytes a memory holds after n bytes from `src` arrive at `base`. -/
def windowWritten (before after : Memory) (base n : Nat) (src : Nat → Byte) : Prop :=
  ∀ a, Memory.read after a = if base ≤ a ∧ a < base + n then src (a - base) else Memory.read before a

/-- The bytes a memory holds after n bytes arrive, byte i from `src i` at `dst i`, later bytes over earlier ones. -/
def bytesArrived (before after : Memory) (dst : Nat → Nat) (n : Nat) (src : Nat → Byte) : Prop :=
  (∀ i, i < n → (∀ j, i < j → j < n → dst j ≠ dst i) → Memory.read after (dst i) = src i) ∧
  ∀ a, (∀ i, i < n → dst i ≠ a) → Memory.read after a = Memory.read before a

/-- The host addresses an operation tells the CPU core to invalidate (R291, R303). -/
def codeInvalidated (romSize : Nat) : Instr → List (Nat × Nat)
  | .dmaToHost cart dram length => if dmaRange romSize cart = .nothing then [] else [(dram, length)]
  | _ => []

/-- The calls made on the interrupt line lead from one level to another, each a change (R303). -/
def callsLead : Bool → List Bool → Bool → Prop
  | first, [], last => first = last
  | first, c :: cs, last => c = !first ∧ callsLead c cs last

end Sys2Proof.Spec

open Sys2Proof Sys2Proof.Machine Sys2Proof.Spec

/-! ## Encoding and the step -/

/-- Decoding the encoding of a well-formed operation gives it back, every operand at every value. -/
def Obligations.DecodeEncodeRoundTrip : Prop :=
  ∀ i : Instr, i.wellFormed = true → decode (encode i) = .ok i

/-- Encoding what an operation decodes to gives the operation back: no bit of it is dropped. -/
def Obligations.EncodeDecodeRoundTrip : Prop :=
  ∀ (op : Operation) (i : Instr), decode op = .ok i → encode i = op

/-- Words written out from R71, R103 and R108 decode to the operations they stand for. -/
def Obligations.SampleWordsDecode : Prop :=
  decode (.cmd 0x01ABCDEF) = .ok (.seekRead 0xABCDEF) ∧
  decode (.cmd 0x1B000000) = .ok (.featureInq 0) ∧
  decode (.cmd 0x06000000) = .ok (.cmdOther 0x06 0) ∧
  decode (.mmioRd 0x05000508) = .ok .rdCmdStatus ∧
  decode (.mmioRd 0x050005BC) = .ok (.rdMseq 15) ∧
  decode (.mmioRd 0x05000504) = .ok (.rdUndef 0x05000504) ∧
  decode (.mmioWr 0x05000520 0xAAAA0000 0xFFFFFFFF) = .ok (.wrHardReset 0xAAAA0000) ∧
  decode (.bmctl .sector5A 0x805A1234) = .ok (.bmctlSector5A 0x80 0x1234) ∧
  decode (.bmctl .start 0xC0000000) = .ok (.bmctlStart 0x40000000)

/-- A step performs the oldest pending operation, decoded, on the state without it; with none pending nothing
happens. The pending list is the model's own (log 1). -/
def Obligations.StepRunsDecodedOperation : Prop :=
  (∀ (s : State) (op : Operation) (rest : List Operation) (i : Instr),
    s.pending = op :: rest → decode op = .ok i → step s = exec i { s with pending := rest }) ∧
  ∀ s : State, s.pending = [] → step s = .next s

/-- The inputs outside the spec's domain are refused by name, and no others are: a low address bit, a partial
write mask (R74, U1), an ill-formed image (R253, U3); the fourth, a control word under a component it does not
hold, is the model's own (log 3). -/
def Obligations.ContractViolationsAreRefused : Prop :=
  (∀ (s : State) (a : Word) (rest : List Operation), s.pending = .mmioRd a :: rest →
    misaligned a → step s = .refused .misalignedAddress) ∧
  (∀ (s : State) (a v m : Word) (rest : List Operation), s.pending = .mmioWr a v m :: rest →
    m ≠ 0xFFFFFFFF → step s = .refused .partialWriteMask) ∧
  (∀ (s : State) (a v : Word) (rest : List Operation), s.pending = .mmioWr a v 0xFFFFFFFF :: rest →
    misaligned a → step s = .refused .misalignedAddress) ∧
  (∀ (s : State) (d : Disk) (rest : List Operation), s.pending = .attach d :: rest →
    d.wellFormed = false → step s = .refused .illFormedImage) ∧
  (∀ (s : State) (p : BmPart) (w : Word) (rest : List Operation), s.pending = .bmctl p w :: rest →
    ¬ holdsComponent w p → step s = .refused .notInControlWord) ∧
  ∀ (s : State) (r : Refusal), step s = .refused r →
    ∃ op rest, s.pending = op :: rest ∧
      ((∃ a, op = .mmioRd a ∧ misaligned a) ∨
        (∃ a v m, op = .mmioWr a v m ∧ (m ≠ 0xFFFFFFFF ∨ misaligned a)) ∨
        (∃ d, op = .attach d ∧ d.wellFormed = false) ∨ ∃ p w, op = .bmctl p w ∧ ¬ holdsComponent w p)

/-- Every operation completes from every state: nothing aborts, traps, stalls or refuses service (R320). -/
def Obligations.EveryOperationCompletes : Prop :=
  ∀ (i : Instr) (s : State), ∃ t, exec i s = .next t

/-! ## Commands -/

/-- The eleven named commands without an implemented effect: the word decodes to the command (by whatever opcode
numbers Params holds: log 5); it is logged, no other state changes, and `MECHA_INT` is raised. -/
def Obligations.UnimplementedCommandsOnlyLog : Prop :=
  ∀ p ∈ ([(param.opNoop, Instr.noop), (param.opRecalibrate, Instr.recalibrate), (param.opSleep, Instr.sleep),
      (param.opStart, Instr.start), (param.opReadVersion, Instr.readVersion),
      (param.opRequestStatus, Instr.requestStatus), (param.opStandby, Instr.standby),
      (param.opIdxLockRetry, Instr.idxLockRetry), (param.opSetYearMonth, Instr.setYearMonth),
      (param.opSetDayHour, Instr.setDayHour), (param.opSetMinSec, Instr.setMinSec)] :
      List (BitVec 8 × (BitVec 24 → Instr))),
    ∀ (r : BitVec 24) (s : State),
      decodeCommand (p.1 ++ r) = p.2 r ∧
      exec (p.2 r) s = .next (commandDone (logged .cmdUnimpl (p.1 ++ r) s))

/-- An opcode no rule names decodes to `CMD_OTHER`, and `CMD_OTHER` is logged and raises `MECHA_INT`. The opcode
numbers are the family's (log 5). -/
def Obligations.UnnamedOpcodesOnlyLog : Prop :=
  ∀ (op : BitVec 8) (r : BitVec 24) (s : State),
    (op ∉ namedOps → decodeCommand (op ++ r) = .cmdOther op r) ∧
    exec (.cmdOther op r) s = .next (commandDone (logged .cmdUnimpl (op ++ r) s))

/-- The two seek commands latch the track from `DATA` with the lock marker and the direction from the command word
(the shift, the marker and the direction bit: logs 5 and 6). -/
def Obligations.SeekCommandsLatchTrackAndDirection : Prop :=
  ∀ (r : BitVec 24) (s : State),
    exec (.seekRead r) s =
      .next (commandDone { s with curTk := (s.data >>> 16) ||| 0x60000000, bmWrite := false }) ∧
    exec (.seekWrite r) s =
      .next (commandDone { s with curTk := (s.data >>> 16) ||| 0x60000000, bmWrite := true })

/-- Clear-reset clears `RST_STATE` and `DISK_CHNG`, clear-disk-change clears `DISK_CHNG`; both raise `MECHA_INT`,
nothing else changes. -/
def Obligations.ClearCommandsClearTheirBits : Prop :=
  ∀ (r : BitVec 24) (s : State),
    exec (.clrReset r) s =
      .next (commandDone { s with
        cmdStatus := putBit (putBit s.cmdStatus param.stRstState false) param.stDiskChng false }) ∧
    exec (.clrDskChng r) s =
      .next (commandDone { s with cmdStatus := putBit s.cmdStatus param.stDiskChng false })

/-- Set-disk-type is logged with `DATA` and changes no state; feature-inquiry writes 0 into `DATA`; both raise
`MECHA_INT`. -/
def Obligations.SetDiskTypeAndFeatureInquiry : Prop :=
  ∀ (r : BitVec 24) (s : State),
    exec (.setDiskType r) s = .next (commandDone (logged .setDiskType s.data s)) ∧
    exec (.featureInq r) s = .next (commandDone { s with data := 0 })

/-- A read-RTC command samples the clock once (the answer is free: log 16), advances the emulated time by the
difference from the last sample, and puts the pair of calendar fields (free: log 17) in `DATA`: the first field's BCD
byte in bits 31:24, the second's in bits 23:16, zeros below (D19: log 45). -/
def Obligations.ReadRtcCommandsSampleOnce : Prop :=
  ∀ (r : BitVec 24) (s : State),
    let t := Config.clockAnswer s.oracle
    let now := s.rtcNow + (t - s.rtcLast)
    let c := Config.calendar (s.oracle + 1) now
    let sampled (first second : Int) : Host.Outcome State Fault Refusal :=
      .next (commandDone { s with
        rtcNow := now, rtcLast := t, oracle := s.oracle + 1
        data := byte2bcd first ++ byte2bcd second ++ 0#16 })
    exec (.getYearMonth r) s = sampled c.year (c.month.val + 1) ∧
    exec (.getDayHour r) s = sampled (c.day.val + 1) c.hour.val ∧
    exec (.getMinSec r) s = sampled c.minute.val c.second.val

/-- A BCD byte holds the tens and the ones of its argument modulo 100 in its two nibbles. -/
def Obligations.BcdByteHoldsTwoDigits : Prop :=
  ∀ n : Int, (byte2bcd n).toNat = 16 * ((n % 100).toNat / 10) + (n % 100).toNat % 10

/-- The command write executes the command its word decodes to; the word is not stored. -/
def Obligations.CommandWriteExecutesItsCommand : Prop :=
  ∀ (v : Word) (s : State), exec (.wrCmdStatus v) s = exec (decodeCommand v) s

/-- After every command write `MECHA_INT` is 1 and the line is high, and the only other state a command changes is
the track and the direction (seeks), `DISK_CHNG` and `RST_STATE` (clears), `DATA` (four commands), the clock (three);
the log, the calls and the draw counter are the model's outputs (logs 16, 33). -/
def Obligations.EveryCommandWriteRaisesMecha : Prop :=
  ∀ (v : Word) (s : State), ∃ t, exec (.wrCmdStatus v) s = .next t ∧
    t.mechaInt = true ∧ t.irqLine = true ∧
    t = { s with
      data := t.data, cmdStatus := t.cmdStatus, curTk := t.curTk, bmWrite := t.bmWrite
      rtcNow := t.rtcNow, rtcLast := t.rtcLast, irqLine := t.irqLine
      oracle := t.oracle, diags := t.diags, lineCalls := t.lineCalls } ∧
    (∀ n, n ≠ param.stMechaInt → n ≠ param.stDiskChng → n ≠ param.stRstState →
      t.cmdStatus.getLsbD n = s.cmdStatus.getLsbD n) ∧
    (cmdOp v ∉ [param.opSeekRead, param.opSeekWrite] → t.curTk = s.curTk ∧ t.bmWrite = s.bmWrite) ∧
    (cmdOp v ∉ [param.opClrDskChng, param.opClrReset] → t.diskChng = s.diskChng) ∧
    (cmdOp v ≠ param.opClrReset → t.rstState = s.rstState) ∧
    (cmdOp v ∉ [param.opGetYearMonth, param.opGetDayHour, param.opGetMinSec] →
      t.rtcNow = s.rtcNow ∧ t.rtcLast = s.rtcLast ∧ (cmdOp v ≠ param.opFeatureInq → t.data = s.data))

/-! ## Register reads and writes -/

/-- Six register reads return the register and have no side effect. -/
def Obligations.PlainReadsReturnTheRegister : Prop :=
  ∀ s : State,
    exec .rdData s = .next { s with readValue := some s.data } ∧
    exec .rdCurTk s = .next { s with readValue := some s.curTk } ∧
    exec .rdBmStatusCtl s = .next { s with readValue := some s.bmStatusCtl } ∧
    exec .rdHostSecbyte s = .next { s with readValue := some s.hostSecbyte } ∧
    exec .rdSecByte s = .next { s with readValue := some s.secByte } ∧
    exec .rdIdReg s = .next { s with readValue := some s.idReg }

/-- The sector index reads as its plain integer (D13, log 39), `HARD_RESET` as 0 (D5), an undefined address as 0
with one diagnostic (D3). -/
def Obligations.SectorHardResetAndUndefinedReads : Prop :=
  ∀ (a : Word) (s : State),
    exec .rdCurSector s = .next { s with readValue := some s.curSector } ∧
    exec .rdHardReset s = .next { s with readValue := some 0 } ∧
    exec (.rdUndef a) s = .next (logged .addrRead a { s with readValue := some 0 })

/-- The status read: it refreshes `DISK_PRES` and returns the refreshed word; with `BM_INT` pending at sector index
86 or more it then acknowledges the interrupt and, if the sequencer runs, advances it one step, which raises `BM_INT`
again (the sample point and the threshold are D14 and D15: log 20; the line after the acknowledgment, left to
`MECHA_INT`, and one call for each of its changes are D16: log 21). -/
def Obligations.StatusReadRefreshesAcknowledgesAndSteps : Prop :=
  ∀ s : State,
    let fresh : State := { s with cmdStatus := putBit s.cmdStatus param.stDiskPres s.disk.isSome }
    (s.bmInt = false ∨ s.curSector.toNat < 86 →
      exec .rdCmdStatus s = .next { fresh with readValue := some fresh.cmdStatus }) ∧
    (s.bmInt = true → 86 ≤ s.curSector.toNat → s.running = false →
      exec .rdCmdStatus s = .next { bmAcknowledged fresh with readValue := some fresh.cmdStatus }) ∧
    (s.bmInt = true → 86 ≤ s.curSector.toNat → s.running = true →
      exec .rdCmdStatus s = .next { bmStep (bmAcknowledged fresh) with readValue := some fresh.cmdStatus } ∧
      (bmStep (bmAcknowledged fresh)).bmInt = true ∧ (bmStep (bmAcknowledged fresh)).irqLine = true)

/-- A `DATA` write stores the word and moves nothing else, the track included; the writes the source does not
describe store nothing and are logged with the register's address (D5, log 27; the addresses are the family's:
log 4); so is a write to an undefined address (D3). -/
def Obligations.DataUnspecifiedAndUndefinedWrites : Prop :=
  ∀ (v a : Word) (s : State),
    exec (.wrData v) s = .next { s with data := v } ∧
    exec (.wrCurTk v) s = .next (logged .writeUnspec 0x0500050C s) ∧
    exec (.wrCurSector v) s = .next (logged .writeUnspec 0x0500051C s) ∧
    exec (.wrIdReg v) s = .next (logged .writeUnspec 0x05000540 s) ∧
    exec (.wrUndef a v) s = .next (logged .addrWrite a s)

/-- A hard-reset write sets `RST_STATE` whatever the value and changes nothing else; a value other than the magic is
logged (D17, log 9). -/
def Obligations.HardResetWriteSetsOnlyRstState : Prop :=
  ∀ (v : Word) (s : State),
    exec (.wrHardReset v) s = .next { s with
      cmdStatus := putBit s.cmdStatus param.stRstState true
      diags := if v = param.hardResetMagic then s.diags else s.diags ++ [{ code := .hardResetMagic, info := v }] }

/-- The byte-count writes store the value and log it if it is not the expected one of the current zone, whatever
values the zone's expectations have (log 18); nothing else changes. -/
def Obligations.ByteCountWritesStoreAndWarn : Prop :=
  ∀ (v : Word) (s : State),
    exec (.wrHostSecbyte v) s = .next { s with
      hostSecbyte := v
      diags :=
        if v = Config.expectedHostSecByte s.bmZone then s.diags
        else s.diags ++ [{ code := .secbyteMismatch, info := v }] } ∧
    exec (.wrSecByte v) s = .next { s with
      secByte := v
      diags :=
        if v = Config.expectedSecByte s.bmZone then s.diags
        else s.diags ++ [{ code := .secbyteMismatch, info := v }] }

/-- The byte-count registers configure nothing: every operation but their own reads and writes and `POWERON` does the
same whatever they hold. -/
def Obligations.ByteCountsConfigureNothing : Prop :=
  ∀ (i : Instr) (s : State) (v w : Word),
    i ≠ .rdHostSecbyte → i ≠ .rdSecByte → (∀ x, i ≠ .wrHostSecbyte x) → (∀ x, i ≠ .wrSecByte x) → i ≠ .powerOn →
    ∃ t, exec i s = .next t ∧ t.hostSecbyte = s.hostSecbyte ∧ t.secByte = s.secByte ∧
      exec i { s with hostSecbyte := v, secByte := w } = .next { t with hostSecbyte := v, secByte := w }

/-- The microsequencer RAM is plain storage: a write stores one word and changes nothing else, a read returns one
word, and the word read after a write is the word written there or the old one elsewhere (D6). -/
def Obligations.MseqRamIsPlainStorage : Prop :=
  ∀ (k j : Fin 16) (v : Word) (s : State),
    exec (.rdMseq k) s = .next { s with readValue := some (s.mseqRam.get k) } ∧
    ∃ ram : Vector Word 16, exec (.wrMseq k v) s = .next { s with mseqRam := ram } ∧
      ram.get j = if j = k then v else s.mseqRam.get j

/-! ## The BM control write -/

/-- A control write is its six parts in order: all of the next state in closed form (D12, D16, D37, D43; log 8). -/
def Obligations.ControlWriteActsInOrder : Prop :=
  ∀ (v : Word) (s : State),
    exec (.wrBmStatusCtl v) s = .next (controlResult v s) ∧ exec .step s = .next (bmStep s)

/-- An operation written for one component of the control word is the whole control write of its word (R200; the
reading of the table's component rows is log 3; the places of the components in the word, each spelled here, are the
family's: D12, log 8). -/
def Obligations.ComponentRowsWriteTheirWord : Prop :=
  ∀ (s : State) (hi8 b : BitVec 8) (lo16 : BitVec 16) (hi7 : BitVec 7) (lo24 : BitVec 24) (hi6 : BitVec 6)
    (lo25 : BitVec 25) (hi3 : BitVec 3) (lo28 : BitVec 28) (lo31 : BitVec 31),
    exec (.bmctlSector00 hi8 lo16) s = .next (controlResult (hi8 ++ 0x00#8 ++ lo16) s) ∧
    exec (.bmctlSector5A hi8 lo16) s = .next (controlResult (hi8 ++ 0x5A#8 ++ lo16) s) ∧
    exec (.bmctlSectorOther hi8 b lo16) s = .next (controlResult (hi8 ++ b ++ lo16) s) ∧
    exec (.bmctlMechaRst hi7 lo24) s = .next (controlResult (hi7 ++ 1#1 ++ lo24) s) ∧
    exec (.bmctlBlkTrans hi6 lo25) s = .next (controlResult (hi6 ++ 1#1 ++ lo25) s) ∧
    exec (.bmctlReset hi3 lo28) s = .next (controlResult (hi3 ++ 1#1 ++ lo28) s) ∧
    exec (.bmctlResetRelease hi3 lo28) s = .next (controlResult (hi3 ++ 0#1 ++ lo28) s) ∧
    exec (.bmctlStart lo31) s = .next (controlResult (1#1 ++ lo31) s)

/-- The BM reset: a write with the reset bit latches that it is held and clears none of the bits below; the first
write without it clears the four status bits, the whole of `BM_STATUS_CTL`, the sector index and the block, and
leaves the rest of the listed state as it was. Both writes without the start and the mecha-reset bit. -/
def Obligations.ReleasedResetClearsTheSequencer : Prop :=
  ∀ (s : State) (v w : Word),
    v.getLsbD param.bmcReset = true → v.getLsbD param.bmcStart = false → v.getLsbD param.bmcMechaRst = false →
    w.getLsbD param.bmcReset = false → w.getLsbD param.bmcStart = false → w.getLsbD param.bmcMechaRst = false →
    ∃ t u, exec (.wrBmStatusCtl v) s = .next t ∧ t.bmResetHeld = true ∧ t.cmdStatus = s.cmdStatus ∧
      (v.getLsbD param.bmcBlkTrans = false → t.bmStatusCtl = s.bmStatusCtl) ∧
      exec (.wrBmStatusCtl w) t = .next u ∧
      u.bmResetHeld = false ∧ u.dataRq = false ∧ u.bmErr = false ∧ u.c2Xfer = false ∧ u.bmInt = false ∧
      u.bmStatusCtl = 0 ∧ u.curSector = 0 ∧ u.bmBlock = false ∧
      u.mechaInt = s.mechaInt ∧ u.diskPres = s.diskPres ∧ u.rstState = s.rstState ∧ u.diskChng = s.diskChng ∧
      u.data = s.data ∧ u.curTk = s.curTk ∧ u.bmWrite = s.bmWrite ∧ u.bmZone = s.bmZone ∧
      u.bmTrackOffset = s.bmTrackOffset ∧ u.hostSecbyte = s.hostSecbyte ∧ u.secByte = s.secByte ∧
      u.c2Buf = s.c2Buf ∧ u.dsBuf = s.dsBuf ∧ u.disk = s.disk ∧ u.mseqRam = s.mseqRam ∧
      u.rtcNow = s.rtcNow ∧ u.rtcLast = s.rtcLast ∧ u.lbaPhysTable = s.lbaPhysTable

/-! ## The sequencer -/

/-- A step of a sequencer that is not running changes nothing. -/
def Obligations.StoppedSequencerDoesNotStep : Prop :=
  ∀ s : State, s.running = false → exec .step s = .next s

/-- Every running step ends with `BM_INT` set and the line high. -/
def Obligations.RunningStepRaisesBmInt : Prop :=
  ∀ s : State, s.running = true → ∃ t, exec .step s = .next t ∧ t.bmInt = true ∧ t.irqLine = true

/-- The write-direction step at sector 0 moves no data: sector index 1, `DATA_RQ`, then the interrupt. -/
def Obligations.WriteStepPrimesAtSectorZero : Prop :=
  ∀ s : State, s.running = true → s.bmWrite = true → s.curSector = 0 →
    exec .step s =
      .next (stepDone { s with curSector := 1, cmdStatus := putBit s.cmdStatus param.stDataRq true })

/-- The write-direction step at sectors 1 to 84 whose seek finds an offset inside the image: the first bytes of
`ds_buf`, as many as the zone's sector holds, go to the image there and to no other byte; the index advances and
`DATA_RQ` is set (the effective sector is s - 1 and the zone sizes the sector: D21, D22, log 40; when the seek sets the
micro flag: D26, log 25; the note on the system data: log 44). -/
def Obligations.WriteStepStoresTheBufferedSector : Prop :=
  ∀ (s : State) (d : Disk) (zone : Fin 16) (off : Nat) (sys : Bool),
    s.running = true → s.bmWrite = true → 1 ≤ s.curSector.toNat → s.curSector.toNat ≤ 84 →
    seekFinds s d (s.curSector.toNat - 1) zone off sys → off + secSize16 zone ≤ d.size →
    ∃ m, exec .step s = .next (stepDone { s with
        bmZone := zone
        bmTrackOffset := BitVec.ofNat 32 off
        bmStatusCtl := crossChecked s d (s.curSector.toNat - 1) off sys
        disk := some { d with data := m }
        sysDataWritten := systemWritten s d off (secSize16 zone)
        curSector := s.curSector + 1
        cmdStatus := putBit s.cmdStatus param.stDataRq true }) ∧
      (Memory.wf d.data = true →
        Memory.wf m = true ∧ windowWritten d.data m off (secSize16 zone) (Memory.read s.dsBuf))

/-- The write-direction step at sector 85, after its seek and its sector write: with the continue flag the block
flips, the index restarts at 1, the flag is consumed and `DATA_RQ` is set; without it the index is 86 and the
sequencer stops. The sector it writes is data sector 84 of the block that was active, as many bytes as the zone's
sector holds (the effective sector and the size: D21, D22, log 40; the note on the system data: log 44). -/
def Obligations.LastWriteStepFlipsOrStops : Prop :=
  ∀ s : State, s.running = true → s.bmWrite = true → s.curSector = 85 →
    (s.continueBlock = true →
      exec .step s = .next (stepDone { seekAndWrite s with
        bmBlock := !s.bmBlock
        curSector := 1
        bmStatusCtl := putBit (seekAndWrite s).bmStatusCtl param.bmsBlock false
        cmdStatus := putBit s.cmdStatus param.stDataRq true })) ∧
    (s.continueBlock = false →
      exec .step s = .next (stepDone { seekAndWrite s with
        curSector := 86
        bmStatusCtl := putBit (seekAndWrite s).bmStatusCtl param.bmsRunning false })) ∧
    ∀ (d : Disk) (zone : Fin 16) (off : Nat) (sys : Bool),
      seekFinds s d 84 zone off sys → off + secSize16 zone ≤ d.size →
      ∃ m, seekAndWrite s = { s with
          bmZone := zone, bmTrackOffset := BitVec.ofNat 32 off, disk := some { d with data := m }
          sysDataWritten := systemWritten s d off (secSize16 zone) } ∧
        (Memory.wf d.data = true →
          Memory.wf m = true ∧ windowWritten d.data m off (secSize16 zone) (Memory.read s.dsBuf))

/-- Past the last slot of its direction a running step is logged, changes nothing, and still raises `BM_INT`; in the
read direction where the track-6 condition does not hold (its mask and its reading with no disk: logs 6, 30). -/
def Obligations.OverrunStepsOnlyLog : Prop :=
  ∀ s : State, s.running = true →
    (s.bmWrite = true → 85 < s.curSector.toNat →
      exec .step s = .next (stepDone (logged .writeOverrun s.curSector s))) ∧
    (s.bmWrite = false → 89 < s.curSector.toNat → ¬ track6 s →
      exec .step s = .next (stepDone (logged .readOverrun s.curSector s)))

/-- The track-6 quirk, at every sector index: `DATA_RQ` clear, the micro flag set, nothing else but the interrupt
(the mask is the family's: log 6). -/
def Obligations.TrackSixStepFails : Prop :=
  ∀ s : State, s.running = true → s.bmWrite = false → track6 s →
    exec .step s = .next (stepDone { s with
      cmdStatus := putBit s.cmdStatus param.stDataRq false
      bmStatusCtl := putBit s.bmStatusCtl param.bmsMicro true })

/-- The read-direction step at sectors 0 to 84: the seek and the sector read, the index advances, `DATA_RQ` is set,
then the interrupt; the seek can set the micro flag only at sector 0 (the track-6 premise: logs 6, 30). -/
def Obligations.ReadStepSeeksReadsAdvances : Prop :=
  ∀ s : State, s.running = true → s.bmWrite = false → ¬ track6 s → s.curSector.toNat ≤ 84 →
    exec .step s = .next (stepDone { seekAndRead s with
      curSector := s.curSector + 1
      cmdStatus := putBit s.cmdStatus param.stDataRq true }) ∧
    ((seekAndRead s).bmStatusCtl = s.bmStatusCtl ∨
      (s.curSector = 0 ∧ (seekAndRead s).bmStatusCtl = putBit s.bmStatusCtl param.bmsMicro true))

/-- That step where its seek finds an offset inside the image: the sector's bytes are in `ds_buf` from index 0, its
other bytes and the image are unchanged (the zone sizes the sector: D22, log 40; when the seek sets the micro flag:
D26, log 25; the track-6 premise: logs 6, 30). -/
def Obligations.ReadStepLoadsTheSector : Prop :=
  ∀ (s : State) (d : Disk) (zone : Fin 16) (off : Nat) (sys : Bool),
    s.running = true → s.bmWrite = false → ¬ track6 s → s.curSector.toNat ≤ 84 →
    seekFinds s d s.curSector.toNat zone off sys → off + secSize16 zone ≤ d.size →
    ∃ m, exec .step s = .next (stepDone { s with
        bmZone := zone
        bmTrackOffset := BitVec.ofNat 32 off
        bmStatusCtl := crossChecked s d s.curSector.toNat off sys
        dsBuf := m
        curSector := s.curSector + 1
        cmdStatus := putBit s.cmdStatus param.stDataRq true }) ∧
      (Memory.wf s.dsBuf = true →
        Memory.wf m = true ∧ windowWritten s.dsBuf m 0 (secSize16 zone) fun i => Memory.read d.data (off + i))

/-- The four error-correction slots zero their quarter of `c2_buf`, each and no other byte; the fourth sets
`C2_XFER` (a quarter per step: D23, log 26; the track-6 premise: logs 6, 30). -/
def Obligations.CorrectionStepsZeroTheirQuarter : Prop :=
  ∀ s : State, s.running = true → s.bmWrite = false → ¬ track6 s →
    85 ≤ s.curSector.toNat → s.curSector.toNat ≤ 88 →
    ∃ m, exec .step s = .next (stepDone { s with
        c2Buf := m
        curSector := s.curSector + 1
        cmdStatus := if s.curSector = 88 then putBit s.cmdStatus param.stC2Xfer true else s.cmdStatus }) ∧
      (Memory.wf s.c2Buf = true →
        Memory.wf m = true ∧ windowWritten s.c2Buf m (256 * (s.curSector.toNat - 85)) 256 fun _ => 0)

/-- The gap step of the read direction, where the track-6 condition does not hold (its mask and its reading with no
disk: logs 6, 30): with the continue flag the block flips, the index returns to 0 and the flag is consumed; without it
the index is 90 and the sequencer stops. -/
def Obligations.GapStepFlipsOrStops : Prop :=
  ∀ s : State, s.running = true → s.bmWrite = false → ¬ track6 s → s.curSector = 89 →
    (s.continueBlock = true →
      exec .step s = .next (stepDone { s with
        bmBlock := !s.bmBlock, curSector := 0, bmStatusCtl := putBit s.bmStatusCtl param.bmsBlock false })) ∧
    (s.continueBlock = false →
      exec .step s = .next (stepDone { s with
        curSector := 90, bmStatusCtl := putBit s.bmStatusCtl param.bmsRunning false }))

/-- A data slot that moves no bytes (D27): with no disk, with a coordinate no LBA has, or with a sector that does not
fit the image (on a `DIRECT` image, the one at the stale offset: D41, log 38), the step logs what failed, changes
neither `ds_buf` nor the image, and goes on: index, `DATA_RQ`, interrupt. For both directions; at sector 85 of a write
the same holds of the seek and the write (the effective sector and the size: D21, D22, log 40; when a seek that finds
an offset outside the image sets the micro flag: D26, log 25). -/
def Obligations.FailedSectorAccessMovesNoBytes : Prop :=
  ∀ s : State,
    (s.disk = none →
      seekAndRead s = logged .imageRange s.bmTrackOffset (logged .imageRange 0 s) ∧
      seekAndWrite s = logged .imageRange s.bmTrackOffset (logged .imageRange 0 s)) ∧
    (∀ d c, s.disk = some d → resolve d s.lbaPhysTable s.curTk s.blockNum s.effectiveSector = .unresolved c →
      seekAndRead s = logged .imageRange s.bmTrackOffset (logged .seekUnresolved (c.setWidth 32) s) ∧
      seekAndWrite s = logged .imageRange s.bmTrackOffset (logged .seekUnresolved (c.setWidth 32) s)) ∧
    (∀ d zone off sys, seekFinds s d s.effectiveSector zone off sys → d.size < off + secSize16 zone →
      seekAndRead s = logged .imageRange (BitVec.ofNat 32 off) { s with
        bmZone := zone, bmTrackOffset := BitVec.ofNat 32 off
        bmStatusCtl := crossChecked s d s.effectiveSector off sys } ∧
      seekAndWrite s = seekAndRead s) ∧
    (∀ d, s.disk = some d → d.format = .direct → d.size < s.bmTrackOffset.toNat + secSize16 s.bmZone →
      seekAndRead s = logged .imageRange s.bmTrackOffset s ∧ seekAndWrite s = logged .imageRange s.bmTrackOffset s) ∧
    (s.running = true → s.bmWrite = true → 1 ≤ s.curSector.toNat → s.curSector.toNat ≤ 84 →
      exec .step s = .next (stepDone { seekAndWrite s with
        curSector := s.curSector + 1, cmdStatus := putBit s.cmdStatus param.stDataRq true }))

/-- On a `DIRECT` image the seek does nothing: the sector moved is the zone's size at the stale offset, the same
for every sector index (D41, log 38; the size: D22, log 40; the note on the system data: log 44). -/
def Obligations.DirectImageSeeksNowhere : Prop :=
  ∀ (s : State) (d : Disk), s.disk = some d → d.format = .direct →
    s.bmTrackOffset.toNat + secSize16 s.bmZone ≤ d.size →
    (∃ m, seekAndRead s = { s with dsBuf := m } ∧
      (Memory.wf s.dsBuf = true → windowWritten s.dsBuf m 0 (secSize16 s.bmZone) fun i =>
        Memory.read d.data (s.bmTrackOffset.toNat + i))) ∧
    ∃ m, seekAndWrite s = { s with
        disk := some { d with data := m }
        sysDataWritten := systemWritten s d s.bmTrackOffset.toNat (secSize16 s.bmZone) } ∧
      (Memory.wf d.data = true →
        windowWritten d.data m s.bmTrackOffset.toNat (secSize16 s.bmZone) (Memory.read s.dsBuf))

/-- What a step never does: every field but the ones named keeps its value, five status bits too; it never sets the
continue flag and never clears the micro flag, `C2_XFER` or `BM_INT`. -/
def Obligations.StepChangesOnlySequencerState : Prop :=
  ∀ s : State, ∃ t, exec .step s = .next t ∧
    t = { s with
      cmdStatus := t.cmdStatus, bmStatusCtl := t.bmStatusCtl, curSector := t.curSector, bmBlock := t.bmBlock
      bmZone := t.bmZone, bmTrackOffset := t.bmTrackOffset, c2Buf := t.c2Buf, dsBuf := t.dsBuf
      irqLine := t.irqLine, disk := t.disk, sysDataWritten := t.sysDataWritten, diags := t.diags
      lineCalls := t.lineCalls } ∧
    t.mechaInt = s.mechaInt ∧ t.rstState = s.rstState ∧ t.diskPres = s.diskPres ∧ t.diskChng = s.diskChng ∧
    t.bmErr = s.bmErr ∧
    (t.continueBlock = true → s.continueBlock = true) ∧ (s.micro = true → t.micro = true) ∧
    (s.c2Xfer = true → t.c2Xfer = true) ∧ (s.bmInt = true → t.bmInt = true)

/-! ## The geometry translator -/

/-- The seek on a `FLAT` image: the zone is the last of its head that starts at or below the track, the offset its
start plus the track, block and sector times their sizes, and it fits 27 bits (D24: log 40; the tables: log 10; the
track mask and the head bit: log 6); the system area is the first 12 tracks of head 0 (D26: log 25). -/
def Obligations.FlatSeekFindsZoneAndOffset : Prop :=
  ∀ (d : Disk) (table : List (BitVec 16)) (tk : Word) (block e : Nat), d.format = .flat → block ≤ 1 → e ≤ 84 →
    let track := (tk &&& 0x00000FFF).toNat
    let head := if tk.getLsbD 12 then 1 else 0
    ∃ z, z ≤ 7 ∧ trackBase z ≤ track ∧ (∀ z', z' ≤ 7 → trackBase z' ≤ track → z' ≤ z) ∧
      ∃ zone : Fin 16, zone.val = z + 8 * head ∧
        ∃ off, resolve d table tk block e = .found zone off (decide (head = 0 ∧ track < 12)) ∧
          off = flatStartOffset zone + (track - trackBase z) * (secSize16 zone * 170)
            + block * (secSize16 zone * 85) + e * secSize16 zone ∧
          off < 2 ^ 27

/-- The seek on an `LBA` image with its table built: the coordinate is the track and head of `CUR_TK` with the block at
bit 13, the packing of the table's entries (logs 6, 11); one that no LBA has is unresolved; otherwise the zone is the
LBA's, the offset the sizes of all earlier blocks plus the sector's (D25: log 40); the system area is the first 24
LBAs (D26: log 25). -/
def Obligations.LbaSeekAddsEarlierBlocks : Prop :=
  ∀ (d : Disk) (tk : Word) (block e : Nat), d.format = .lba → d.type < 7 →
    let coord := BitVec.ofNat 16 ((tk.toNat &&& 0x1FFF) ||| (block <<< 13))
    packPhys (tk.toNat &&& 0xFFF) (if tk.getLsbD 12 then 1 else 0) block = coord ∧
    let lba := physToLba (buildTable d) coord
    (lba = 0xFFFF → resolve d (buildTable d) tk block e = .unresolved coord) ∧
    (lba ≠ 0xFFFF → ∃ v, lbaToVZone d.type lba = some v ∧
      resolve d (buildTable d) tk block e =
        .found (vzoneToPZone d.type v)
          (((List.range lba).map (physBlockBytes d.type)).sum + e * secSize16 (vzoneToPZone d.type v))
          (decide (lba < 24)))

/-- Every LBA up to the last lies in exactly the first virtual zone whose boundary exceeds it, one of 16; past the
last there is none (D45). -/
def Obligations.ZoneOfLbaIsTheFirstAboveIt : Prop :=
  ∀ type lba : Nat, type < 7 →
    (lba ≤ Config.maxLba → ∃ v, v < 16 ∧ lbaToVZone type lba = some v ∧ lba < vzoneLba type v ∧
      ∀ w, w < v → vzoneLba type w ≤ lba) ∧
    (Config.maxLba < lba → lbaToVZone type lba = none)

/-- The byte size of a run of blocks is the sum of its blocks' sizes; a run that goes past the last LBA gives the
overflow sentinel, a run of no blocks 0 (D31; one that starts past it: D45, log 46); a block is 85 sectors of the size
that its physical zone has in the per-zone table. -/
def Obligations.RunSizeIsTheSumOfItsBlocks : Prop :=
  ∀ type start n : Nat, type < 7 →
    (start + n ≤ Config.maxLba + 1 →
      lbaToByte type start n = ((List.range n).map fun k => physBlockBytes type (start + k)).sum) ∧
    (0 < n → Config.maxLba + 1 < start + n → lbaToByte type start n = 0xFFFFFFFF) ∧
    lbaToByte type start 0 = 0 ∧
    ∀ l v, lbaToVZone type l = some v → physBlockBytes type l = secSize16 (vzoneToPZone type v) * 85

/-- Defect compensation: the track is the nominal one plus the number k of entries consumed; each consumed entry,
offset by the zone's track start, was at or below the track as corrected so far, and the next is above it or there is
none. The track start is that of the zone in head, for both heads, and the entries are taken in the order listed
(the tables and the packing: logs 10, 11; an LBA in no zone is taken in virtual zone 0: log 46). -/
def Obligations.DefectiveTracksAreSkipped : Prop :=
  ∀ (type lba : Nat) (defects : Vector (List Nat) 16),
    let pz := vzoneToPZone type ((lbaToVZone type lba).getD 0)
    let rel := (lba - zoneStartLba type ((lbaToVZone type lba).getD 0)) / 2
    let base := trackBase (pz.val % 8)
    let nominal := if pz.val ≤ 7 then trackStart pz + rel else trackStart pz - rel
    ∃ k, k ≤ (defects.get pz).length ∧
      lbaToPhys type defects lba =
        packPhys (nominal + k) (if pz.val ≤ 7 then 0 else 1) (if lba % 4 = 0 ∨ lba % 4 = 3 then 0 else 1) ∧
      (∀ j, j < k → (defects.get pz).getD j 0 + base ≤ nominal + j) ∧
      (k < (defects.get pz).length → nominal + k < (defects.get pz).getD k 0 + base)

/-- The reverse lookup returns the first LBA whose entry is the coordinate, and the sentinel if no entry is. -/
def Obligations.ReverseLookupFindsTheFirstEntry : Prop :=
  ∀ (table : List (BitVec 16)) (coord : BitVec 16), table.length ≤ Config.maxLba + 1 →
    (∀ l, l < table.length → table[l]? = some coord → (∀ j, j < l → table[j]? ≠ some coord) →
      physToLba table coord = l) ∧
    (coord ∉ table → physToLba table coord = 0xFFFF)

/-- The reverse lookup undoes the forward function on every LBA exactly when the forward function gives different
LBAs different coordinates; and the forward function undoes the lookup on every coordinate that is found. -/
def Obligations.RoundTripIffCoordinatesDiffer : Prop :=
  ∀ d : Disk,
    ((∀ l, l ≤ Config.maxLba → physToLba (buildTable d) (lbaToPhys d.type d.defects l) = l) ↔
      (∀ l m, l ≤ Config.maxLba → m ≤ Config.maxLba → l ≠ m →
        lbaToPhys d.type d.defects l ≠ lbaToPhys d.type d.defects m)) ∧
    ∀ c, physToLba (buildTable d) c ≠ Config.lbaNotFound →
      lbaToPhys d.type d.defects (physToLba (buildTable d) c) = c

/-- On a disk of any of the seven types whose defect lists are ascending with at most 12 entries per zone, the reverse
lookup undoes the forward function on every LBA. -/
def Obligations.RoundTripOnWellFormedDefects : Prop :=
  ∀ d : Disk, d.type < Config.numDiskTypes →
    (∀ pz : Fin 16, (d.defects.get pz).length ≤ 12 ∧ (d.defects.get pz).Pairwise (· ≤ ·)) →
    ∀ l, l ≤ Config.maxLba → physToLba (buildTable d) (lbaToPhys d.type d.defects l) = l

/-! ## Port events -/

/-- A cart address in `c2_buf` clears `C2_XFER`, one in `ds_buf` clears `DATA_RQ`; both clear `BM_ERR` and acknowledge
the block-transfer interrupt; any other address does nothing (D16, D32; the ranges: log 4). -/
def Obligations.CartAddressClearsItsBuffer : Prop :=
  ∀ (a : Word) (s : State),
    exec (.cartAddr a) s = .next (
      if 0x05000000 ≤ a.toNat ∧ a.toNat ≤ 0x050003FF then
        bmAcknowledged { s with cmdStatus := putBit (putBit s.cmdStatus param.stC2Xfer false) param.stBmErr false }
      else if 0x05000400 ≤ a.toNat ∧ a.toNat ≤ 0x050004FF then
        bmAcknowledged { s with cmdStatus := putBit (putBit s.cmdStatus param.stDataRq false) param.stBmErr false }
      else s)

/-- A transfer to the host copies the buffer's bytes, wrapped, or the ROM's that exist, to the host addresses from
`dram_addr` on (without a width: log 22) and to no other byte, calls `InvalidateCode` and returns its cost; from an
address in no range it moves nothing and is logged (D32, D34; logs 4, 24). Which byte goes where rests on the logical
byte order (D33: log 45). The cost of n bytes is n times a fixed ratio, rounded up or down (the ratio and the rounding
are free: log 19). -/
def Obligations.TransferToHostCopiesTheBuffer : Prop :=
  (∃ num den : Nat, 0 < den ∧ ∀ n, transferCost n * den < n * num + den ∧ n * num < transferCost n * den + den) ∧
  ∀ (cart : Word) (dram length : Nat) (s : State),
    let copied (n : Nat) (src : Nat → Byte) : Prop :=
      ∃ m, exec (.dmaToHost cart dram length) s = .next { s with
          hostMem := m
          invalidations := s.invalidations ++ [(dram, length)]
          dmaCost := some (transferCost length) } ∧
        (Memory.wf s.hostMem = true →
          Memory.wf m = true ∧ windowWritten s.hostMem m dram n src)
    if 0x05000000 ≤ cart.toNat ∧ cart.toNat ≤ 0x050003FF then
      copied length fun i => Memory.read s.c2Buf ((cart.toNat - 0x05000000 + i) % 1024)
    else if 0x05000400 ≤ cart.toNat ∧ cart.toNat ≤ 0x050004FF then
      copied length fun i => Memory.read s.dsBuf ((cart.toNat - 0x05000400 + i) % 256)
    else if 0x06000000 ≤ cart.toNat ∧ cart.toNat < 0x06000000 + s.rom.size then
      copied (min length (s.rom.size - (cart.toNat - 0x06000000))) fun i =>
        Memory.read s.rom.data (cart.toNat - 0x06000000 + i)
    else
      exec (.dmaToHost cart dram length) s =
        .next (logged .dmaRange cart { s with dmaCost := some (transferCost length) })

/-- A transfer from the host stores its bytes in the buffer, wrapped, later bytes over earlier ones, and changes no
other state; into the ROM range or into no range it moves nothing and is logged (D32, D34; logs 4, 19; host addresses
without a width: log 22). Which byte goes where rests on the logical byte order (D33: log 45). -/
def Obligations.TransferFromHostFillsTheBuffer : Prop :=
  ∀ (cart : Word) (dram length : Nat) (s : State),
    let src (i : Nat) : Byte := Memory.read s.hostMem (dram + i)
    let cost := some (transferCost length)
    if 0x05000000 ≤ cart.toNat ∧ cart.toNat ≤ 0x050003FF then
      ∃ m, exec (.dmaFromHost cart dram length) s = .next { s with c2Buf := m, dmaCost := cost } ∧
        (Memory.wf s.c2Buf = true →
          Memory.wf m = true ∧
          bytesArrived s.c2Buf m (fun i => (cart.toNat - 0x05000000 + i) % 1024) length src)
    else if 0x05000400 ≤ cart.toNat ∧ cart.toNat ≤ 0x050004FF then
      ∃ m, exec (.dmaFromHost cart dram length) s = .next { s with dsBuf := m, dmaCost := cost } ∧
        (Memory.wf s.dsBuf = true →
          Memory.wf m = true ∧
          bytesArrived s.dsBuf m (fun i => (cart.toNat - 0x05000400 + i) % 256) length src)
    else if 0x06000000 ≤ cart.toNat ∧ cart.toNat < 0x06000000 + s.rom.size then
      exec (.dmaFromHost cart dram length) s = .next (logged .dmaRomWrite cart { s with dmaCost := cost })
    else
      exec (.dmaFromHost cart dram length) s = .next (logged .dmaRange cart { s with dmaCost := cost })

/-- Attaching sets the disk, with its system data as read now (R376; the note of log 44), and, for an `LBA` image,
builds the table entry by entry; detaching removes the disk; neither changes anything else (D35, log 34). -/
def Obligations.AttachBuildsTheTable : Prop :=
  ∀ (d : Disk) (s : State),
    exec .detach s = .next { s with disk := none } ∧
    ∃ table, exec (.attach d) s = .next { s with disk := some d, lbaPhysTable := table, sysDataWritten := false } ∧
      (d.format ≠ .lba → table = s.lbaPhysTable) ∧
      (d.format = .lba → table.length = Config.maxLba + 1 ∧
        ∀ l, l ≤ Config.maxLba → table[l]? = some (lbaToPhys d.type d.defects l))

/-- Power-on: registers, latches and the three memories at their reset values (the memories: D18), `DISK_PRES`
refreshed, the line low, the table rebuilt for an `LBA` disk; the clock pair takes free values (log 14); the image,
the host's memory, the ROM, the pending operations and the outputs stay (log 37). The metadata of an `LBA` image whose
system data was overwritten are read anew (free: log 44), those of every other attachment stay. -/
def Obligations.PowerOnResetsTheDevice : Prop :=
  ∀ s : State, ∃ now last image,
    exec .powerOn s = .next (lineTo false { s with
      data := 0, curTk := 0, bmStatusCtl := 0, curSector := 0, hardReset := 0, hostSecbyte := 0, secByte := 0
      idReg := param.hwId
      cmdStatus := putBit (putBit 0 param.stRstState true) param.stDiskPres s.disk.isSome
      bmWrite := false, bmBlock := false, bmZone := 0, bmTrackOffset := 0, bmResetHeld := false
      c2Buf := [], dsBuf := [], mseqRam := Vector.replicate 16 0
      rtcNow := now, rtcLast := last, oracle := s.oracle + 1
      disk := image, sysDataWritten := false
      lbaPhysTable := match image with
        | some d => if d.format = .lba then buildTable d else s.lbaPhysTable
        | none => s.lbaPhysTable }) ∧
    (s.sysDataWritten = false ∨ (∀ d, s.disk = some d → d.format ≠ .lba) → image = s.disk) ∧
    ∀ d, s.disk = some d → ∃ d', image = some d' ∧ (d.wellFormed = true → d'.wellFormed = true) ∧
      d' = { d with type := d'.type, defects := d'.defects, sysOffset := d'.sysOffset, idOffset := d'.idOffset }

/-! ## The whole machine -/

/-- Every step keeps the invariant of R48, with the sector index at most 90 (R45) and the memories in canonical form
and, those of the block, inside their sizes. -/
def Obligations.StepKeepsInvariant : Prop :=
  ∀ s t : State, s.Inv → step s = .next t → t.Inv

/-- The state after reset meets the invariant. -/
def Obligations.ResetMeetsInvariant : Prop := State.reset.Inv

/-- The reset values the spec gives, with no disk attached; the clock pair, the table, the environment and the
model's own fields are not in it (logs 13 to 15). -/
def Obligations.ResetValues : Prop :=
  State.reset.data = 0 ∧ State.reset.curTk = 0 ∧ State.reset.bmStatusCtl = 0 ∧ State.reset.curSector = 0 ∧
  State.reset.hardReset = 0 ∧ State.reset.hostSecbyte = 0 ∧ State.reset.secByte = 0 ∧
  State.reset.idReg = param.hwId ∧ State.reset.disk = none ∧
  State.reset.rstState = true ∧
  (∀ n, n ≠ param.stRstState → State.reset.cmdStatus.getLsbD n = false) ∧
  State.reset.bmWrite = false ∧ State.reset.bmBlock = false ∧ State.reset.bmZone = 0 ∧
  State.reset.bmTrackOffset = 0 ∧ State.reset.bmResetHeld = false ∧
  (∀ a, Memory.read State.reset.c2Buf a = 0) ∧ (∀ a, Memory.read State.reset.dsBuf a = 0) ∧
  (∀ k, State.reset.mseqRam.get k = 0) ∧ State.reset.irqLine = false

/-- The calls on the interrupt line are exactly its changes, in order, and `InvalidateCode` is called after every
transfer to the host that has a range (the condition of R291), and by nothing else. -/
def Obligations.CollaboratorCallsFollowTheLine : Prop :=
  ∀ (i : Instr) (s : State), ∃ t, exec i s = .next t ∧
    (∃ calls, t.lineCalls = s.lineCalls ++ calls ∧ callsLead s.irqLine calls t.irqLine) ∧
    t.invalidations = s.invalidations ++ codeInvalidated s.rom.size i

/-- What raises the two interrupts: `BM_INT` only a sequencer step, `MECHA_INT` only a command write. What clears
them: `MECHA_INT` only a control write with the mecha-reset bit and power-on; `BM_INT` only a status read at sector
index 86 or more (D15: log 20), a cart address in a buffer (its range: log 4), a control write that performs the BM
reset, power-on. The opcodes and the places of the control bits are the family's (logs 5, 8). -/
def Obligations.InterruptsHaveNamedCausesAndClears : Prop :=
  ∀ (i : Instr) (s t : State), exec i s = .next t →
    (s.bmInt = false → t.bmInt = true → maySequence i s) ∧
    (s.mechaInt = false → t.mechaInt = true → ∃ v, commandWordOf i = some v) ∧
    (s.mechaInt = true → t.mechaInt = false →
      i = .powerOn ∨ ∃ v, controlWordOf i = some v ∧ v.getLsbD param.bmcMechaRst = true) ∧
    (s.bmInt = true → t.bmInt = false →
      i = .powerOn ∨ (i = .rdCmdStatus ∧ 86 ≤ s.curSector.toNat) ∨
      (∃ a, i = .cartAddr a ∧ 0x05000000 ≤ a.toNat ∧ a.toNat ≤ 0x050004FF) ∨
      ∃ v, controlWordOf i = some v ∧ bmResets v s = true)

/-- No operation sets `BM_ERR` or `DISK_CHNG`; only clear-reset and nothing else clears `RST_STATE`; only a BM reset
or power-on clears the micro flag (D35, D40; logs 5, 8, 34). -/
def Obligations.StickyAndUnusedStatusBits : Prop :=
  ∀ (i : Instr) (s t : State), exec i s = .next t →
    (t.bmErr = true → s.bmErr = true) ∧ (t.diskChng = true → s.diskChng = true) ∧
    (s.rstState = true → t.rstState = false → ∃ v, commandWordOf i = some v ∧ cmdOp v = param.opClrReset) ∧
    (s.micro = true → t.micro = false → i = .powerOn ∨ ∃ v, controlWordOf i = some v ∧ bmResets v s = true)

/-- Only a seek command and power-on change the track and the direction; only a sequencer step and power-on the zone
and the offset; only a control write, a sequencer step and power-on the block; only a control write and power-on the
reset latch; only a write-direction step, attaching, detaching and a power-on after the system data was overwritten
(log 44) the disk (that nothing else writes an attached image: log 32); only attaching an `LBA` image and power-on
with one the table; only a read-RTC command and power-on the clock pair; only a step, a transfer and power-on the two
buffers; only a transfer to the host the host's memory (log 43); nothing the ROM (log 24); only its own write and
power-on the microsequencer RAM. A status read steps at sector index 86 or more (D15: log 20); the opcodes and the
places of the control bits are the family's (logs 5, 8). -/
def Obligations.StateHasNamedWriters : Prop :=
  ∀ (i : Instr) (s t : State), exec i s = .next t →
    (t.curTk ≠ s.curTk ∨ t.bmWrite ≠ s.bmWrite →
      i = .powerOn ∨ ∃ v, commandWordOf i = some v ∧ cmdOp v ∈ [param.opSeekRead, param.opSeekWrite]) ∧
    (t.bmZone ≠ s.bmZone ∨ t.bmTrackOffset ≠ s.bmTrackOffset → i = .powerOn ∨ maySequence i s) ∧
    (t.bmBlock ≠ s.bmBlock → i = .powerOn ∨ (∃ v, controlWordOf i = some v) ∨ maySequence i s) ∧
    (t.bmResetHeld ≠ s.bmResetHeld → i = .powerOn ∨ ∃ v, controlWordOf i = some v) ∧
    (t.disk ≠ s.disk → i = .detach ∨ (∃ d, i = .attach d) ∨ (i = .powerOn ∧ s.sysDataWritten = true) ∨
      (maySequence i s ∧ s.bmWrite = true)) ∧
    (t.lbaPhysTable ≠ s.lbaPhysTable →
      (∃ d, i = .attach d ∧ d.format = .lba) ∨ (i = .powerOn ∧ ∃ d, s.disk = some d ∧ d.format = .lba)) ∧
    (t.rtcNow ≠ s.rtcNow ∨ t.rtcLast ≠ s.rtcLast → i = .powerOn ∨
      ∃ v, commandWordOf i = some v ∧ cmdOp v ∈ [param.opGetYearMonth, param.opGetDayHour, param.opGetMinSec]) ∧
    (t.dsBuf ≠ s.dsBuf ∨ t.c2Buf ≠ s.c2Buf →
      i = .powerOn ∨ (∃ c a n, i = .dmaFromHost c a n) ∨ (maySequence i s ∧ s.bmWrite = false)) ∧
    (t.hostMem ≠ s.hostMem → ∃ c a n, i = .dmaToHost c a n) ∧ t.rom = s.rom ∧
    (t.mseqRam ≠ s.mseqRam → i = .powerOn ∨ ∃ k v, i = .wrMseq k v)
end

