-- ==== Sys2Proof/Laws/State.lean ====
section
/-! SUPPORT. One lemma per field per named update of State: what the field reads after it. -/

namespace Sys2Proof.Machine

variable (s : State)

@[simp] theorem State.putStatus_data (n : Nat) (b : Bool) : (s.putStatus n b).data = s.data := rfl
@[simp] theorem State.putStatus_cmdStatus (n : Nat) (b : Bool) :
    (s.putStatus n b).cmdStatus = putBit s.cmdStatus n b := rfl
@[simp] theorem State.putStatus_curTk (n : Nat) (b : Bool) :
    (s.putStatus n b).curTk = s.curTk := rfl
@[simp] theorem State.putStatus_bmStatusCtl (n : Nat) (b : Bool) :
    (s.putStatus n b).bmStatusCtl = s.bmStatusCtl := rfl
@[simp] theorem State.putStatus_curSector (n : Nat) (b : Bool) :
    (s.putStatus n b).curSector = s.curSector := rfl
@[simp] theorem State.putStatus_hardReset (n : Nat) (b : Bool) :
    (s.putStatus n b).hardReset = s.hardReset := rfl
@[simp] theorem State.putStatus_hostSecbyte (n : Nat) (b : Bool) :
    (s.putStatus n b).hostSecbyte = s.hostSecbyte := rfl
@[simp] theorem State.putStatus_secByte (n : Nat) (b : Bool) :
    (s.putStatus n b).secByte = s.secByte := rfl
@[simp] theorem State.putStatus_idReg (n : Nat) (b : Bool) :
    (s.putStatus n b).idReg = s.idReg := rfl
@[simp] theorem State.putStatus_bmWrite (n : Nat) (b : Bool) :
    (s.putStatus n b).bmWrite = s.bmWrite := rfl
@[simp] theorem State.putStatus_bmBlock (n : Nat) (b : Bool) :
    (s.putStatus n b).bmBlock = s.bmBlock := rfl
@[simp] theorem State.putStatus_bmZone (n : Nat) (b : Bool) :
    (s.putStatus n b).bmZone = s.bmZone := rfl
@[simp] theorem State.putStatus_bmTrackOffset (n : Nat) (b : Bool) :
    (s.putStatus n b).bmTrackOffset = s.bmTrackOffset := rfl
@[simp] theorem State.putStatus_bmResetHeld (n : Nat) (b : Bool) :
    (s.putStatus n b).bmResetHeld = s.bmResetHeld := rfl
@[simp] theorem State.putStatus_c2Buf (n : Nat) (b : Bool) :
    (s.putStatus n b).c2Buf = s.c2Buf := rfl
@[simp] theorem State.putStatus_dsBuf (n : Nat) (b : Bool) :
    (s.putStatus n b).dsBuf = s.dsBuf := rfl
@[simp] theorem State.putStatus_mseqRam (n : Nat) (b : Bool) :
    (s.putStatus n b).mseqRam = s.mseqRam := rfl
@[simp] theorem State.putStatus_rtcNow (n : Nat) (b : Bool) :
    (s.putStatus n b).rtcNow = s.rtcNow := rfl
@[simp] theorem State.putStatus_rtcLast (n : Nat) (b : Bool) :
    (s.putStatus n b).rtcLast = s.rtcLast := rfl
@[simp] theorem State.putStatus_lbaPhysTable (n : Nat) (b : Bool) :
    (s.putStatus n b).lbaPhysTable = s.lbaPhysTable := rfl
@[simp] theorem State.putStatus_irqLine (n : Nat) (b : Bool) :
    (s.putStatus n b).irqLine = s.irqLine := rfl
@[simp] theorem State.putStatus_disk (n : Nat) (b : Bool) : (s.putStatus n b).disk = s.disk := rfl
@[simp] theorem State.putStatus_hostMem (n : Nat) (b : Bool) :
    (s.putStatus n b).hostMem = s.hostMem := rfl
@[simp] theorem State.putStatus_rom (n : Nat) (b : Bool) : (s.putStatus n b).rom = s.rom := rfl
@[simp] theorem State.putStatus_sysDataWritten (n : Nat) (b : Bool) :
    (s.putStatus n b).sysDataWritten = s.sysDataWritten := rfl
@[simp] theorem State.putStatus_pending (n : Nat) (b : Bool) :
    (s.putStatus n b).pending = s.pending := rfl
@[simp] theorem State.putStatus_oracle (n : Nat) (b : Bool) :
    (s.putStatus n b).oracle = s.oracle := rfl
@[simp] theorem State.putStatus_diags (n : Nat) (b : Bool) :
    (s.putStatus n b).diags = s.diags := rfl
@[simp] theorem State.putStatus_lineCalls (n : Nat) (b : Bool) :
    (s.putStatus n b).lineCalls = s.lineCalls := rfl
@[simp] theorem State.putStatus_invalidations (n : Nat) (b : Bool) :
    (s.putStatus n b).invalidations = s.invalidations := rfl
@[simp] theorem State.putStatus_readValue (n : Nat) (b : Bool) :
    (s.putStatus n b).readValue = s.readValue := rfl
@[simp] theorem State.putStatus_dmaCost (n : Nat) (b : Bool) :
    (s.putStatus n b).dmaCost = s.dmaCost := rfl

@[simp] theorem State.putBms_data (n : Nat) (b : Bool) : (s.putBms n b).data = s.data := rfl
@[simp] theorem State.putBms_cmdStatus (n : Nat) (b : Bool) :
    (s.putBms n b).cmdStatus = s.cmdStatus := rfl
@[simp] theorem State.putBms_curTk (n : Nat) (b : Bool) : (s.putBms n b).curTk = s.curTk := rfl
@[simp] theorem State.putBms_bmStatusCtl (n : Nat) (b : Bool) :
    (s.putBms n b).bmStatusCtl = putBit s.bmStatusCtl n b := rfl
@[simp] theorem State.putBms_curSector (n : Nat) (b : Bool) :
    (s.putBms n b).curSector = s.curSector := rfl
@[simp] theorem State.putBms_hardReset (n : Nat) (b : Bool) :
    (s.putBms n b).hardReset = s.hardReset := rfl
@[simp] theorem State.putBms_hostSecbyte (n : Nat) (b : Bool) :
    (s.putBms n b).hostSecbyte = s.hostSecbyte := rfl
@[simp] theorem State.putBms_secByte (n : Nat) (b : Bool) :
    (s.putBms n b).secByte = s.secByte := rfl
@[simp] theorem State.putBms_idReg (n : Nat) (b : Bool) : (s.putBms n b).idReg = s.idReg := rfl
@[simp] theorem State.putBms_bmWrite (n : Nat) (b : Bool) :
    (s.putBms n b).bmWrite = s.bmWrite := rfl
@[simp] theorem State.putBms_bmBlock (n : Nat) (b : Bool) :
    (s.putBms n b).bmBlock = s.bmBlock := rfl
@[simp] theorem State.putBms_bmZone (n : Nat) (b : Bool) : (s.putBms n b).bmZone = s.bmZone := rfl
@[simp] theorem State.putBms_bmTrackOffset (n : Nat) (b : Bool) :
    (s.putBms n b).bmTrackOffset = s.bmTrackOffset := rfl
@[simp] theorem State.putBms_bmResetHeld (n : Nat) (b : Bool) :
    (s.putBms n b).bmResetHeld = s.bmResetHeld := rfl
@[simp] theorem State.putBms_c2Buf (n : Nat) (b : Bool) : (s.putBms n b).c2Buf = s.c2Buf := rfl
@[simp] theorem State.putBms_dsBuf (n : Nat) (b : Bool) : (s.putBms n b).dsBuf = s.dsBuf := rfl
@[simp] theorem State.putBms_mseqRam (n : Nat) (b : Bool) :
    (s.putBms n b).mseqRam = s.mseqRam := rfl
@[simp] theorem State.putBms_rtcNow (n : Nat) (b : Bool) : (s.putBms n b).rtcNow = s.rtcNow := rfl
@[simp] theorem State.putBms_rtcLast (n : Nat) (b : Bool) :
    (s.putBms n b).rtcLast = s.rtcLast := rfl
@[simp] theorem State.putBms_lbaPhysTable (n : Nat) (b : Bool) :
    (s.putBms n b).lbaPhysTable = s.lbaPhysTable := rfl
@[simp] theorem State.putBms_irqLine (n : Nat) (b : Bool) :
    (s.putBms n b).irqLine = s.irqLine := rfl
@[simp] theorem State.putBms_disk (n : Nat) (b : Bool) : (s.putBms n b).disk = s.disk := rfl
@[simp] theorem State.putBms_hostMem (n : Nat) (b : Bool) :
    (s.putBms n b).hostMem = s.hostMem := rfl
@[simp] theorem State.putBms_rom (n : Nat) (b : Bool) : (s.putBms n b).rom = s.rom := rfl
@[simp] theorem State.putBms_sysDataWritten (n : Nat) (b : Bool) :
    (s.putBms n b).sysDataWritten = s.sysDataWritten := rfl
@[simp] theorem State.putBms_pending (n : Nat) (b : Bool) :
    (s.putBms n b).pending = s.pending := rfl
@[simp] theorem State.putBms_oracle (n : Nat) (b : Bool) : (s.putBms n b).oracle = s.oracle := rfl
@[simp] theorem State.putBms_diags (n : Nat) (b : Bool) : (s.putBms n b).diags = s.diags := rfl
@[simp] theorem State.putBms_lineCalls (n : Nat) (b : Bool) :
    (s.putBms n b).lineCalls = s.lineCalls := rfl
@[simp] theorem State.putBms_invalidations (n : Nat) (b : Bool) :
    (s.putBms n b).invalidations = s.invalidations := rfl
@[simp] theorem State.putBms_readValue (n : Nat) (b : Bool) :
    (s.putBms n b).readValue = s.readValue := rfl
@[simp] theorem State.putBms_dmaCost (n : Nat) (b : Bool) :
    (s.putBms n b).dmaCost = s.dmaCost := rfl

@[simp] theorem State.diag_data (c : DiagCode) (w : Word) : (s.diag c w).data = s.data := rfl
@[simp] theorem State.diag_cmdStatus (c : DiagCode) (w : Word) :
    (s.diag c w).cmdStatus = s.cmdStatus := rfl
@[simp] theorem State.diag_curTk (c : DiagCode) (w : Word) : (s.diag c w).curTk = s.curTk := rfl
@[simp] theorem State.diag_bmStatusCtl (c : DiagCode) (w : Word) :
    (s.diag c w).bmStatusCtl = s.bmStatusCtl := rfl
@[simp] theorem State.diag_curSector (c : DiagCode) (w : Word) :
    (s.diag c w).curSector = s.curSector := rfl
@[simp] theorem State.diag_hardReset (c : DiagCode) (w : Word) :
    (s.diag c w).hardReset = s.hardReset := rfl
@[simp] theorem State.diag_hostSecbyte (c : DiagCode) (w : Word) :
    (s.diag c w).hostSecbyte = s.hostSecbyte := rfl
@[simp] theorem State.diag_secByte (c : DiagCode) (w : Word) :
    (s.diag c w).secByte = s.secByte := rfl
@[simp] theorem State.diag_idReg (c : DiagCode) (w : Word) : (s.diag c w).idReg = s.idReg := rfl
@[simp] theorem State.diag_bmWrite (c : DiagCode) (w : Word) :
    (s.diag c w).bmWrite = s.bmWrite := rfl
@[simp] theorem State.diag_bmBlock (c : DiagCode) (w : Word) :
    (s.diag c w).bmBlock = s.bmBlock := rfl
@[simp] theorem State.diag_bmZone (c : DiagCode) (w : Word) : (s.diag c w).bmZone = s.bmZone := rfl
@[simp] theorem State.diag_bmTrackOffset (c : DiagCode) (w : Word) :
    (s.diag c w).bmTrackOffset = s.bmTrackOffset := rfl
@[simp] theorem State.diag_bmResetHeld (c : DiagCode) (w : Word) :
    (s.diag c w).bmResetHeld = s.bmResetHeld := rfl
@[simp] theorem State.diag_c2Buf (c : DiagCode) (w : Word) : (s.diag c w).c2Buf = s.c2Buf := rfl
@[simp] theorem State.diag_dsBuf (c : DiagCode) (w : Word) : (s.diag c w).dsBuf = s.dsBuf := rfl
@[simp] theorem State.diag_mseqRam (c : DiagCode) (w : Word) :
    (s.diag c w).mseqRam = s.mseqRam := rfl
@[simp] theorem State.diag_rtcNow (c : DiagCode) (w : Word) : (s.diag c w).rtcNow = s.rtcNow := rfl
@[simp] theorem State.diag_rtcLast (c : DiagCode) (w : Word) :
    (s.diag c w).rtcLast = s.rtcLast := rfl
@[simp] theorem State.diag_lbaPhysTable (c : DiagCode) (w : Word) :
    (s.diag c w).lbaPhysTable = s.lbaPhysTable := rfl
@[simp] theorem State.diag_irqLine (c : DiagCode) (w : Word) :
    (s.diag c w).irqLine = s.irqLine := rfl
@[simp] theorem State.diag_disk (c : DiagCode) (w : Word) : (s.diag c w).disk = s.disk := rfl
@[simp] theorem State.diag_hostMem (c : DiagCode) (w : Word) :
    (s.diag c w).hostMem = s.hostMem := rfl
@[simp] theorem State.diag_rom (c : DiagCode) (w : Word) : (s.diag c w).rom = s.rom := rfl
@[simp] theorem State.diag_sysDataWritten (c : DiagCode) (w : Word) :
    (s.diag c w).sysDataWritten = s.sysDataWritten := rfl
@[simp] theorem State.diag_pending (c : DiagCode) (w : Word) :
    (s.diag c w).pending = s.pending := rfl
@[simp] theorem State.diag_oracle (c : DiagCode) (w : Word) : (s.diag c w).oracle = s.oracle := rfl
@[simp] theorem State.diag_diags (c : DiagCode) (w : Word) :
    (s.diag c w).diags = s.diags ++ [⟨c, w⟩] := rfl
@[simp] theorem State.diag_lineCalls (c : DiagCode) (w : Word) :
    (s.diag c w).lineCalls = s.lineCalls := rfl
@[simp] theorem State.diag_invalidations (c : DiagCode) (w : Word) :
    (s.diag c w).invalidations = s.invalidations := rfl
@[simp] theorem State.diag_readValue (c : DiagCode) (w : Word) :
    (s.diag c w).readValue = s.readValue := rfl
@[simp] theorem State.diag_dmaCost (c : DiagCode) (w : Word) :
    (s.diag c w).dmaCost = s.dmaCost := rfl

@[simp] theorem State.diagIf_data (b : Bool) (c : DiagCode) (w : Word) :
    (s.diagIf b c w).data = s.data := rfl
@[simp] theorem State.diagIf_cmdStatus (b : Bool) (c : DiagCode) (w : Word) :
    (s.diagIf b c w).cmdStatus = s.cmdStatus := rfl
@[simp] theorem State.diagIf_curTk (b : Bool) (c : DiagCode) (w : Word) :
    (s.diagIf b c w).curTk = s.curTk := rfl
@[simp] theorem State.diagIf_bmStatusCtl (b : Bool) (c : DiagCode) (w : Word) :
    (s.diagIf b c w).bmStatusCtl = s.bmStatusCtl := rfl
@[simp] theorem State.diagIf_curSector (b : Bool) (c : DiagCode) (w : Word) :
    (s.diagIf b c w).curSector = s.curSector := rfl
@[simp] theorem State.diagIf_hardReset (b : Bool) (c : DiagCode) (w : Word) :
    (s.diagIf b c w).hardReset = s.hardReset := rfl
@[simp] theorem State.diagIf_hostSecbyte (b : Bool) (c : DiagCode) (w : Word) :
    (s.diagIf b c w).hostSecbyte = s.hostSecbyte := rfl
@[simp] theorem State.diagIf_secByte (b : Bool) (c : DiagCode) (w : Word) :
    (s.diagIf b c w).secByte = s.secByte := rfl
@[simp] theorem State.diagIf_idReg (b : Bool) (c : DiagCode) (w : Word) :
    (s.diagIf b c w).idReg = s.idReg := rfl
@[simp] theorem State.diagIf_bmWrite (b : Bool) (c : DiagCode) (w : Word) :
    (s.diagIf b c w).bmWrite = s.bmWrite := rfl
@[simp] theorem State.diagIf_bmBlock (b : Bool) (c : DiagCode) (w : Word) :
    (s.diagIf b c w).bmBlock = s.bmBlock := rfl
@[simp] theorem State.diagIf_bmZone (b : Bool) (c : DiagCode) (w : Word) :
    (s.diagIf b c w).bmZone = s.bmZone := rfl
@[simp] theorem State.diagIf_bmTrackOffset (b : Bool) (c : DiagCode) (w : Word) :
    (s.diagIf b c w).bmTrackOffset = s.bmTrackOffset := rfl
@[simp] theorem State.diagIf_bmResetHeld (b : Bool) (c : DiagCode) (w : Word) :
    (s.diagIf b c w).bmResetHeld = s.bmResetHeld := rfl
@[simp] theorem State.diagIf_c2Buf (b : Bool) (c : DiagCode) (w : Word) :
    (s.diagIf b c w).c2Buf = s.c2Buf := rfl
@[simp] theorem State.diagIf_dsBuf (b : Bool) (c : DiagCode) (w : Word) :
    (s.diagIf b c w).dsBuf = s.dsBuf := rfl
@[simp] theorem State.diagIf_mseqRam (b : Bool) (c : DiagCode) (w : Word) :
    (s.diagIf b c w).mseqRam = s.mseqRam := rfl
@[simp] theorem State.diagIf_rtcNow (b : Bool) (c : DiagCode) (w : Word) :
    (s.diagIf b c w).rtcNow = s.rtcNow := rfl
@[simp] theorem State.diagIf_rtcLast (b : Bool) (c : DiagCode) (w : Word) :
    (s.diagIf b c w).rtcLast = s.rtcLast := rfl
@[simp] theorem State.diagIf_lbaPhysTable (b : Bool) (c : DiagCode) (w : Word) :
    (s.diagIf b c w).lbaPhysTable = s.lbaPhysTable := rfl
@[simp] theorem State.diagIf_irqLine (b : Bool) (c : DiagCode) (w : Word) :
    (s.diagIf b c w).irqLine = s.irqLine := rfl
@[simp] theorem State.diagIf_disk (b : Bool) (c : DiagCode) (w : Word) :
    (s.diagIf b c w).disk = s.disk := rfl
@[simp] theorem State.diagIf_hostMem (b : Bool) (c : DiagCode) (w : Word) :
    (s.diagIf b c w).hostMem = s.hostMem := rfl
@[simp] theorem State.diagIf_rom (b : Bool) (c : DiagCode) (w : Word) :
    (s.diagIf b c w).rom = s.rom := rfl
@[simp] theorem State.diagIf_sysDataWritten (b : Bool) (c : DiagCode) (w : Word) :
    (s.diagIf b c w).sysDataWritten = s.sysDataWritten := rfl
@[simp] theorem State.diagIf_pending (b : Bool) (c : DiagCode) (w : Word) :
    (s.diagIf b c w).pending = s.pending := rfl
@[simp] theorem State.diagIf_oracle (b : Bool) (c : DiagCode) (w : Word) :
    (s.diagIf b c w).oracle = s.oracle := rfl
@[simp] theorem State.diagIf_diags (b : Bool) (c : DiagCode) (w : Word) :
    (s.diagIf b c w).diags = if b then s.diags ++ [⟨c, w⟩] else s.diags := rfl
@[simp] theorem State.diagIf_lineCalls (b : Bool) (c : DiagCode) (w : Word) :
    (s.diagIf b c w).lineCalls = s.lineCalls := rfl
@[simp] theorem State.diagIf_invalidations (b : Bool) (c : DiagCode) (w : Word) :
    (s.diagIf b c w).invalidations = s.invalidations := rfl
@[simp] theorem State.diagIf_readValue (b : Bool) (c : DiagCode) (w : Word) :
    (s.diagIf b c w).readValue = s.readValue := rfl
@[simp] theorem State.diagIf_dmaCost (b : Bool) (c : DiagCode) (w : Word) :
    (s.diagIf b c w).dmaCost = s.dmaCost := rfl

@[simp] theorem State.updateIrqLine_data : (s.updateIrqLine).data = s.data := rfl
@[simp] theorem State.updateIrqLine_cmdStatus : (s.updateIrqLine).cmdStatus = s.cmdStatus := rfl
@[simp] theorem State.updateIrqLine_curTk : (s.updateIrqLine).curTk = s.curTk := rfl
@[simp] theorem State.updateIrqLine_bmStatusCtl :
    (s.updateIrqLine).bmStatusCtl = s.bmStatusCtl := rfl
@[simp] theorem State.updateIrqLine_curSector : (s.updateIrqLine).curSector = s.curSector := rfl
@[simp] theorem State.updateIrqLine_hardReset : (s.updateIrqLine).hardReset = s.hardReset := rfl
@[simp] theorem State.updateIrqLine_hostSecbyte :
    (s.updateIrqLine).hostSecbyte = s.hostSecbyte := rfl
@[simp] theorem State.updateIrqLine_secByte : (s.updateIrqLine).secByte = s.secByte := rfl
@[simp] theorem State.updateIrqLine_idReg : (s.updateIrqLine).idReg = s.idReg := rfl
@[simp] theorem State.updateIrqLine_bmWrite : (s.updateIrqLine).bmWrite = s.bmWrite := rfl
@[simp] theorem State.updateIrqLine_bmBlock : (s.updateIrqLine).bmBlock = s.bmBlock := rfl
@[simp] theorem State.updateIrqLine_bmZone : (s.updateIrqLine).bmZone = s.bmZone := rfl
@[simp] theorem State.updateIrqLine_bmTrackOffset :
    (s.updateIrqLine).bmTrackOffset = s.bmTrackOffset := rfl
@[simp] theorem State.updateIrqLine_bmResetHeld :
    (s.updateIrqLine).bmResetHeld = s.bmResetHeld := rfl
@[simp] theorem State.updateIrqLine_c2Buf : (s.updateIrqLine).c2Buf = s.c2Buf := rfl
@[simp] theorem State.updateIrqLine_dsBuf : (s.updateIrqLine).dsBuf = s.dsBuf := rfl
@[simp] theorem State.updateIrqLine_mseqRam : (s.updateIrqLine).mseqRam = s.mseqRam := rfl
@[simp] theorem State.updateIrqLine_rtcNow : (s.updateIrqLine).rtcNow = s.rtcNow := rfl
@[simp] theorem State.updateIrqLine_rtcLast : (s.updateIrqLine).rtcLast = s.rtcLast := rfl
@[simp] theorem State.updateIrqLine_lbaPhysTable :
    (s.updateIrqLine).lbaPhysTable = s.lbaPhysTable := rfl
@[simp] theorem State.updateIrqLine_irqLine : (s.updateIrqLine).irqLine = s.irqPending := rfl
@[simp] theorem State.updateIrqLine_disk : (s.updateIrqLine).disk = s.disk := rfl
@[simp] theorem State.updateIrqLine_hostMem : (s.updateIrqLine).hostMem = s.hostMem := rfl
@[simp] theorem State.updateIrqLine_rom : (s.updateIrqLine).rom = s.rom := rfl
@[simp] theorem State.updateIrqLine_sysDataWritten :
    (s.updateIrqLine).sysDataWritten = s.sysDataWritten := rfl
@[simp] theorem State.updateIrqLine_pending : (s.updateIrqLine).pending = s.pending := rfl
@[simp] theorem State.updateIrqLine_oracle : (s.updateIrqLine).oracle = s.oracle := rfl
@[simp] theorem State.updateIrqLine_diags : (s.updateIrqLine).diags = s.diags := rfl
@[simp] theorem State.updateIrqLine_lineCalls :
    (s.updateIrqLine).lineCalls = if s.irqPending = s.irqLine then s.lineCalls else s.lineCalls ++ [s.irqPending] := rfl
@[simp] theorem State.updateIrqLine_invalidations :
    (s.updateIrqLine).invalidations = s.invalidations := rfl
@[simp] theorem State.updateIrqLine_readValue : (s.updateIrqLine).readValue = s.readValue := rfl
@[simp] theorem State.updateIrqLine_dmaCost : (s.updateIrqLine).dmaCost = s.dmaCost := rfl

@[simp] theorem State.setIrq_data (src : IrqSource) : (s.setIrq src).data = s.data := rfl
@[simp] theorem State.setIrq_cmdStatus (src : IrqSource) :
    (s.setIrq src).cmdStatus = putBit s.cmdStatus (irqBit src) true := rfl
@[simp] theorem State.setIrq_curTk (src : IrqSource) : (s.setIrq src).curTk = s.curTk := rfl
@[simp] theorem State.setIrq_bmStatusCtl (src : IrqSource) :
    (s.setIrq src).bmStatusCtl = s.bmStatusCtl := rfl
@[simp] theorem State.setIrq_curSector (src : IrqSource) :
    (s.setIrq src).curSector = s.curSector := rfl
@[simp] theorem State.setIrq_hardReset (src : IrqSource) :
    (s.setIrq src).hardReset = s.hardReset := rfl
@[simp] theorem State.setIrq_hostSecbyte (src : IrqSource) :
    (s.setIrq src).hostSecbyte = s.hostSecbyte := rfl
@[simp] theorem State.setIrq_secByte (src : IrqSource) : (s.setIrq src).secByte = s.secByte := rfl
@[simp] theorem State.setIrq_idReg (src : IrqSource) : (s.setIrq src).idReg = s.idReg := rfl
@[simp] theorem State.setIrq_bmWrite (src : IrqSource) : (s.setIrq src).bmWrite = s.bmWrite := rfl
@[simp] theorem State.setIrq_bmBlock (src : IrqSource) : (s.setIrq src).bmBlock = s.bmBlock := rfl
@[simp] theorem State.setIrq_bmZone (src : IrqSource) : (s.setIrq src).bmZone = s.bmZone := rfl
@[simp] theorem State.setIrq_bmTrackOffset (src : IrqSource) :
    (s.setIrq src).bmTrackOffset = s.bmTrackOffset := rfl
@[simp] theorem State.setIrq_bmResetHeld (src : IrqSource) :
    (s.setIrq src).bmResetHeld = s.bmResetHeld := rfl
@[simp] theorem State.setIrq_c2Buf (src : IrqSource) : (s.setIrq src).c2Buf = s.c2Buf := rfl
@[simp] theorem State.setIrq_dsBuf (src : IrqSource) : (s.setIrq src).dsBuf = s.dsBuf := rfl
@[simp] theorem State.setIrq_mseqRam (src : IrqSource) : (s.setIrq src).mseqRam = s.mseqRam := rfl
@[simp] theorem State.setIrq_rtcNow (src : IrqSource) : (s.setIrq src).rtcNow = s.rtcNow := rfl
@[simp] theorem State.setIrq_rtcLast (src : IrqSource) : (s.setIrq src).rtcLast = s.rtcLast := rfl
@[simp] theorem State.setIrq_lbaPhysTable (src : IrqSource) :
    (s.setIrq src).lbaPhysTable = s.lbaPhysTable := rfl
@[simp] theorem State.setIrq_irqLine (src : IrqSource) :
    (s.setIrq src).irqLine = (s.putStatus (irqBit src) true).irqPending := rfl
@[simp] theorem State.setIrq_disk (src : IrqSource) : (s.setIrq src).disk = s.disk := rfl
@[simp] theorem State.setIrq_hostMem (src : IrqSource) : (s.setIrq src).hostMem = s.hostMem := rfl
@[simp] theorem State.setIrq_rom (src : IrqSource) : (s.setIrq src).rom = s.rom := rfl
@[simp] theorem State.setIrq_sysDataWritten (src : IrqSource) :
    (s.setIrq src).sysDataWritten = s.sysDataWritten := rfl
@[simp] theorem State.setIrq_pending (src : IrqSource) : (s.setIrq src).pending = s.pending := rfl
@[simp] theorem State.setIrq_oracle (src : IrqSource) : (s.setIrq src).oracle = s.oracle := rfl
@[simp] theorem State.setIrq_diags (src : IrqSource) : (s.setIrq src).diags = s.diags := rfl
@[simp] theorem State.setIrq_invalidations (src : IrqSource) :
    (s.setIrq src).invalidations = s.invalidations := rfl
@[simp] theorem State.setIrq_readValue (src : IrqSource) :
    (s.setIrq src).readValue = s.readValue := rfl
@[simp] theorem State.setIrq_dmaCost (src : IrqSource) : (s.setIrq src).dmaCost = s.dmaCost := rfl

@[simp] theorem State.clrIrq_data (src : IrqSource) : (s.clrIrq src).data = s.data := rfl
@[simp] theorem State.clrIrq_cmdStatus (src : IrqSource) :
    (s.clrIrq src).cmdStatus = putBit s.cmdStatus (irqBit src) false := rfl
@[simp] theorem State.clrIrq_curTk (src : IrqSource) : (s.clrIrq src).curTk = s.curTk := rfl
@[simp] theorem State.clrIrq_bmStatusCtl (src : IrqSource) :
    (s.clrIrq src).bmStatusCtl = s.bmStatusCtl := rfl
@[simp] theorem State.clrIrq_curSector (src : IrqSource) :
    (s.clrIrq src).curSector = s.curSector := rfl
@[simp] theorem State.clrIrq_hardReset (src : IrqSource) :
    (s.clrIrq src).hardReset = s.hardReset := rfl
@[simp] theorem State.clrIrq_hostSecbyte (src : IrqSource) :
    (s.clrIrq src).hostSecbyte = s.hostSecbyte := rfl
@[simp] theorem State.clrIrq_secByte (src : IrqSource) : (s.clrIrq src).secByte = s.secByte := rfl
@[simp] theorem State.clrIrq_idReg (src : IrqSource) : (s.clrIrq src).idReg = s.idReg := rfl
@[simp] theorem State.clrIrq_bmWrite (src : IrqSource) : (s.clrIrq src).bmWrite = s.bmWrite := rfl
@[simp] theorem State.clrIrq_bmBlock (src : IrqSource) : (s.clrIrq src).bmBlock = s.bmBlock := rfl
@[simp] theorem State.clrIrq_bmZone (src : IrqSource) : (s.clrIrq src).bmZone = s.bmZone := rfl
@[simp] theorem State.clrIrq_bmTrackOffset (src : IrqSource) :
    (s.clrIrq src).bmTrackOffset = s.bmTrackOffset := rfl
@[simp] theorem State.clrIrq_bmResetHeld (src : IrqSource) :
    (s.clrIrq src).bmResetHeld = s.bmResetHeld := rfl
@[simp] theorem State.clrIrq_c2Buf (src : IrqSource) : (s.clrIrq src).c2Buf = s.c2Buf := rfl
@[simp] theorem State.clrIrq_dsBuf (src : IrqSource) : (s.clrIrq src).dsBuf = s.dsBuf := rfl
@[simp] theorem State.clrIrq_mseqRam (src : IrqSource) : (s.clrIrq src).mseqRam = s.mseqRam := rfl
@[simp] theorem State.clrIrq_rtcNow (src : IrqSource) : (s.clrIrq src).rtcNow = s.rtcNow := rfl
@[simp] theorem State.clrIrq_rtcLast (src : IrqSource) : (s.clrIrq src).rtcLast = s.rtcLast := rfl
@[simp] theorem State.clrIrq_lbaPhysTable (src : IrqSource) :
    (s.clrIrq src).lbaPhysTable = s.lbaPhysTable := rfl
@[simp] theorem State.clrIrq_irqLine (src : IrqSource) :
    (s.clrIrq src).irqLine = (s.putStatus (irqBit src) false).irqPending := rfl
@[simp] theorem State.clrIrq_disk (src : IrqSource) : (s.clrIrq src).disk = s.disk := rfl
@[simp] theorem State.clrIrq_hostMem (src : IrqSource) : (s.clrIrq src).hostMem = s.hostMem := rfl
@[simp] theorem State.clrIrq_rom (src : IrqSource) : (s.clrIrq src).rom = s.rom := rfl
@[simp] theorem State.clrIrq_sysDataWritten (src : IrqSource) :
    (s.clrIrq src).sysDataWritten = s.sysDataWritten := rfl
@[simp] theorem State.clrIrq_pending (src : IrqSource) : (s.clrIrq src).pending = s.pending := rfl
@[simp] theorem State.clrIrq_oracle (src : IrqSource) : (s.clrIrq src).oracle = s.oracle := rfl
@[simp] theorem State.clrIrq_diags (src : IrqSource) : (s.clrIrq src).diags = s.diags := rfl
@[simp] theorem State.clrIrq_invalidations (src : IrqSource) :
    (s.clrIrq src).invalidations = s.invalidations := rfl
@[simp] theorem State.clrIrq_readValue (src : IrqSource) :
    (s.clrIrq src).readValue = s.readValue := rfl
@[simp] theorem State.clrIrq_dmaCost (src : IrqSource) : (s.clrIrq src).dmaCost = s.dmaCost := rfl

@[simp] theorem State.returnValue_data (v : Word) : (s.returnValue v).data = s.data := rfl
@[simp] theorem State.returnValue_cmdStatus (v : Word) :
    (s.returnValue v).cmdStatus = s.cmdStatus := rfl
@[simp] theorem State.returnValue_curTk (v : Word) : (s.returnValue v).curTk = s.curTk := rfl
@[simp] theorem State.returnValue_bmStatusCtl (v : Word) :
    (s.returnValue v).bmStatusCtl = s.bmStatusCtl := rfl
@[simp] theorem State.returnValue_curSector (v : Word) :
    (s.returnValue v).curSector = s.curSector := rfl
@[simp] theorem State.returnValue_hardReset (v : Word) :
    (s.returnValue v).hardReset = s.hardReset := rfl
@[simp] theorem State.returnValue_hostSecbyte (v : Word) :
    (s.returnValue v).hostSecbyte = s.hostSecbyte := rfl
@[simp] theorem State.returnValue_secByte (v : Word) : (s.returnValue v).secByte = s.secByte := rfl
@[simp] theorem State.returnValue_idReg (v : Word) : (s.returnValue v).idReg = s.idReg := rfl
@[simp] theorem State.returnValue_bmWrite (v : Word) : (s.returnValue v).bmWrite = s.bmWrite := rfl
@[simp] theorem State.returnValue_bmBlock (v : Word) : (s.returnValue v).bmBlock = s.bmBlock := rfl
@[simp] theorem State.returnValue_bmZone (v : Word) : (s.returnValue v).bmZone = s.bmZone := rfl
@[simp] theorem State.returnValue_bmTrackOffset (v : Word) :
    (s.returnValue v).bmTrackOffset = s.bmTrackOffset := rfl
@[simp] theorem State.returnValue_bmResetHeld (v : Word) :
    (s.returnValue v).bmResetHeld = s.bmResetHeld := rfl
@[simp] theorem State.returnValue_c2Buf (v : Word) : (s.returnValue v).c2Buf = s.c2Buf := rfl
@[simp] theorem State.returnValue_dsBuf (v : Word) : (s.returnValue v).dsBuf = s.dsBuf := rfl
@[simp] theorem State.returnValue_mseqRam (v : Word) : (s.returnValue v).mseqRam = s.mseqRam := rfl
@[simp] theorem State.returnValue_rtcNow (v : Word) : (s.returnValue v).rtcNow = s.rtcNow := rfl
@[simp] theorem State.returnValue_rtcLast (v : Word) : (s.returnValue v).rtcLast = s.rtcLast := rfl
@[simp] theorem State.returnValue_lbaPhysTable (v : Word) :
    (s.returnValue v).lbaPhysTable = s.lbaPhysTable := rfl
@[simp] theorem State.returnValue_irqLine (v : Word) : (s.returnValue v).irqLine = s.irqLine := rfl
@[simp] theorem State.returnValue_disk (v : Word) : (s.returnValue v).disk = s.disk := rfl
@[simp] theorem State.returnValue_hostMem (v : Word) : (s.returnValue v).hostMem = s.hostMem := rfl
@[simp] theorem State.returnValue_rom (v : Word) : (s.returnValue v).rom = s.rom := rfl
@[simp] theorem State.returnValue_sysDataWritten (v : Word) :
    (s.returnValue v).sysDataWritten = s.sysDataWritten := rfl
@[simp] theorem State.returnValue_pending (v : Word) : (s.returnValue v).pending = s.pending := rfl
@[simp] theorem State.returnValue_oracle (v : Word) : (s.returnValue v).oracle = s.oracle := rfl
@[simp] theorem State.returnValue_diags (v : Word) : (s.returnValue v).diags = s.diags := rfl
@[simp] theorem State.returnValue_lineCalls (v : Word) :
    (s.returnValue v).lineCalls = s.lineCalls := rfl
@[simp] theorem State.returnValue_invalidations (v : Word) :
    (s.returnValue v).invalidations = s.invalidations := rfl
@[simp] theorem State.returnValue_readValue (v : Word) : (s.returnValue v).readValue = some v := rfl
@[simp] theorem State.returnValue_dmaCost (v : Word) : (s.returnValue v).dmaCost = s.dmaCost := rfl

@[simp] theorem State.refreshDiskPres_data : (s.refreshDiskPres).data = s.data := rfl
@[simp] theorem State.refreshDiskPres_cmdStatus :
    (s.refreshDiskPres).cmdStatus = putBit s.cmdStatus param.stDiskPres s.diskAttached := rfl
@[simp] theorem State.refreshDiskPres_curTk : (s.refreshDiskPres).curTk = s.curTk := rfl
@[simp] theorem State.refreshDiskPres_bmStatusCtl :
    (s.refreshDiskPres).bmStatusCtl = s.bmStatusCtl := rfl
@[simp] theorem State.refreshDiskPres_curSector : (s.refreshDiskPres).curSector = s.curSector := rfl
@[simp] theorem State.refreshDiskPres_hardReset : (s.refreshDiskPres).hardReset = s.hardReset := rfl
@[simp] theorem State.refreshDiskPres_hostSecbyte :
    (s.refreshDiskPres).hostSecbyte = s.hostSecbyte := rfl
@[simp] theorem State.refreshDiskPres_secByte : (s.refreshDiskPres).secByte = s.secByte := rfl
@[simp] theorem State.refreshDiskPres_idReg : (s.refreshDiskPres).idReg = s.idReg := rfl
@[simp] theorem State.refreshDiskPres_bmWrite : (s.refreshDiskPres).bmWrite = s.bmWrite := rfl
@[simp] theorem State.refreshDiskPres_bmBlock : (s.refreshDiskPres).bmBlock = s.bmBlock := rfl
@[simp] theorem State.refreshDiskPres_bmZone : (s.refreshDiskPres).bmZone = s.bmZone := rfl
@[simp] theorem State.refreshDiskPres_bmTrackOffset :
    (s.refreshDiskPres).bmTrackOffset = s.bmTrackOffset := rfl
@[simp] theorem State.refreshDiskPres_bmResetHeld :
    (s.refreshDiskPres).bmResetHeld = s.bmResetHeld := rfl
@[simp] theorem State.refreshDiskPres_c2Buf : (s.refreshDiskPres).c2Buf = s.c2Buf := rfl
@[simp] theorem State.refreshDiskPres_dsBuf : (s.refreshDiskPres).dsBuf = s.dsBuf := rfl
@[simp] theorem State.refreshDiskPres_mseqRam : (s.refreshDiskPres).mseqRam = s.mseqRam := rfl
@[simp] theorem State.refreshDiskPres_rtcNow : (s.refreshDiskPres).rtcNow = s.rtcNow := rfl
@[simp] theorem State.refreshDiskPres_rtcLast : (s.refreshDiskPres).rtcLast = s.rtcLast := rfl
@[simp] theorem State.refreshDiskPres_lbaPhysTable :
    (s.refreshDiskPres).lbaPhysTable = s.lbaPhysTable := rfl
@[simp] theorem State.refreshDiskPres_irqLine : (s.refreshDiskPres).irqLine = s.irqLine := rfl
@[simp] theorem State.refreshDiskPres_disk : (s.refreshDiskPres).disk = s.disk := rfl
@[simp] theorem State.refreshDiskPres_hostMem : (s.refreshDiskPres).hostMem = s.hostMem := rfl
@[simp] theorem State.refreshDiskPres_rom : (s.refreshDiskPres).rom = s.rom := rfl
@[simp] theorem State.refreshDiskPres_sysDataWritten :
    (s.refreshDiskPres).sysDataWritten = s.sysDataWritten := rfl
@[simp] theorem State.refreshDiskPres_pending : (s.refreshDiskPres).pending = s.pending := rfl
@[simp] theorem State.refreshDiskPres_oracle : (s.refreshDiskPres).oracle = s.oracle := rfl
@[simp] theorem State.refreshDiskPres_diags : (s.refreshDiskPres).diags = s.diags := rfl
@[simp] theorem State.refreshDiskPres_lineCalls : (s.refreshDiskPres).lineCalls = s.lineCalls := rfl
@[simp] theorem State.refreshDiskPres_invalidations :
    (s.refreshDiskPres).invalidations = s.invalidations := rfl
@[simp] theorem State.refreshDiskPres_readValue : (s.refreshDiskPres).readValue = s.readValue := rfl
@[simp] theorem State.refreshDiskPres_dmaCost : (s.refreshDiskPres).dmaCost = s.dmaCost := rfl

@[simp] theorem State.rtcAdvance_data (t : Int) : (s.rtcAdvance t).data = s.data := rfl
@[simp] theorem State.rtcAdvance_cmdStatus (t : Int) :
    (s.rtcAdvance t).cmdStatus = s.cmdStatus := rfl
@[simp] theorem State.rtcAdvance_curTk (t : Int) : (s.rtcAdvance t).curTk = s.curTk := rfl
@[simp] theorem State.rtcAdvance_bmStatusCtl (t : Int) :
    (s.rtcAdvance t).bmStatusCtl = s.bmStatusCtl := rfl
@[simp] theorem State.rtcAdvance_curSector (t : Int) :
    (s.rtcAdvance t).curSector = s.curSector := rfl
@[simp] theorem State.rtcAdvance_hardReset (t : Int) :
    (s.rtcAdvance t).hardReset = s.hardReset := rfl
@[simp] theorem State.rtcAdvance_hostSecbyte (t : Int) :
    (s.rtcAdvance t).hostSecbyte = s.hostSecbyte := rfl
@[simp] theorem State.rtcAdvance_secByte (t : Int) : (s.rtcAdvance t).secByte = s.secByte := rfl
@[simp] theorem State.rtcAdvance_idReg (t : Int) : (s.rtcAdvance t).idReg = s.idReg := rfl
@[simp] theorem State.rtcAdvance_bmWrite (t : Int) : (s.rtcAdvance t).bmWrite = s.bmWrite := rfl
@[simp] theorem State.rtcAdvance_bmBlock (t : Int) : (s.rtcAdvance t).bmBlock = s.bmBlock := rfl
@[simp] theorem State.rtcAdvance_bmZone (t : Int) : (s.rtcAdvance t).bmZone = s.bmZone := rfl
@[simp] theorem State.rtcAdvance_bmTrackOffset (t : Int) :
    (s.rtcAdvance t).bmTrackOffset = s.bmTrackOffset := rfl
@[simp] theorem State.rtcAdvance_bmResetHeld (t : Int) :
    (s.rtcAdvance t).bmResetHeld = s.bmResetHeld := rfl
@[simp] theorem State.rtcAdvance_c2Buf (t : Int) : (s.rtcAdvance t).c2Buf = s.c2Buf := rfl
@[simp] theorem State.rtcAdvance_dsBuf (t : Int) : (s.rtcAdvance t).dsBuf = s.dsBuf := rfl
@[simp] theorem State.rtcAdvance_mseqRam (t : Int) : (s.rtcAdvance t).mseqRam = s.mseqRam := rfl
@[simp] theorem State.rtcAdvance_rtcNow (t : Int) :
    (s.rtcAdvance t).rtcNow = s.rtcNow + (t - s.rtcLast) := rfl
@[simp] theorem State.rtcAdvance_rtcLast (t : Int) : (s.rtcAdvance t).rtcLast = t := rfl
@[simp] theorem State.rtcAdvance_lbaPhysTable (t : Int) :
    (s.rtcAdvance t).lbaPhysTable = s.lbaPhysTable := rfl
@[simp] theorem State.rtcAdvance_irqLine (t : Int) : (s.rtcAdvance t).irqLine = s.irqLine := rfl
@[simp] theorem State.rtcAdvance_disk (t : Int) : (s.rtcAdvance t).disk = s.disk := rfl
@[simp] theorem State.rtcAdvance_hostMem (t : Int) : (s.rtcAdvance t).hostMem = s.hostMem := rfl
@[simp] theorem State.rtcAdvance_rom (t : Int) : (s.rtcAdvance t).rom = s.rom := rfl
@[simp] theorem State.rtcAdvance_sysDataWritten (t : Int) :
    (s.rtcAdvance t).sysDataWritten = s.sysDataWritten := rfl
@[simp] theorem State.rtcAdvance_pending (t : Int) : (s.rtcAdvance t).pending = s.pending := rfl
@[simp] theorem State.rtcAdvance_oracle (t : Int) : (s.rtcAdvance t).oracle = s.oracle := rfl
@[simp] theorem State.rtcAdvance_diags (t : Int) : (s.rtcAdvance t).diags = s.diags := rfl
@[simp] theorem State.rtcAdvance_lineCalls (t : Int) :
    (s.rtcAdvance t).lineCalls = s.lineCalls := rfl
@[simp] theorem State.rtcAdvance_invalidations (t : Int) :
    (s.rtcAdvance t).invalidations = s.invalidations := rfl
@[simp] theorem State.rtcAdvance_readValue (t : Int) :
    (s.rtcAdvance t).readValue = s.readValue := rfl
@[simp] theorem State.rtcAdvance_dmaCost (t : Int) : (s.rtcAdvance t).dmaCost = s.dmaCost := rfl

@[simp] theorem State.rtcSample_data : (s.rtcSample).data = s.data := rfl
@[simp] theorem State.rtcSample_cmdStatus : (s.rtcSample).cmdStatus = s.cmdStatus := rfl
@[simp] theorem State.rtcSample_curTk : (s.rtcSample).curTk = s.curTk := rfl
@[simp] theorem State.rtcSample_bmStatusCtl : (s.rtcSample).bmStatusCtl = s.bmStatusCtl := rfl
@[simp] theorem State.rtcSample_curSector : (s.rtcSample).curSector = s.curSector := rfl
@[simp] theorem State.rtcSample_hardReset : (s.rtcSample).hardReset = s.hardReset := rfl
@[simp] theorem State.rtcSample_hostSecbyte : (s.rtcSample).hostSecbyte = s.hostSecbyte := rfl
@[simp] theorem State.rtcSample_secByte : (s.rtcSample).secByte = s.secByte := rfl
@[simp] theorem State.rtcSample_idReg : (s.rtcSample).idReg = s.idReg := rfl
@[simp] theorem State.rtcSample_bmWrite : (s.rtcSample).bmWrite = s.bmWrite := rfl
@[simp] theorem State.rtcSample_bmBlock : (s.rtcSample).bmBlock = s.bmBlock := rfl
@[simp] theorem State.rtcSample_bmZone : (s.rtcSample).bmZone = s.bmZone := rfl
@[simp] theorem State.rtcSample_bmTrackOffset : (s.rtcSample).bmTrackOffset = s.bmTrackOffset := rfl
@[simp] theorem State.rtcSample_bmResetHeld : (s.rtcSample).bmResetHeld = s.bmResetHeld := rfl
@[simp] theorem State.rtcSample_c2Buf : (s.rtcSample).c2Buf = s.c2Buf := rfl
@[simp] theorem State.rtcSample_dsBuf : (s.rtcSample).dsBuf = s.dsBuf := rfl
@[simp] theorem State.rtcSample_mseqRam : (s.rtcSample).mseqRam = s.mseqRam := rfl
@[simp] theorem State.rtcSample_rtcNow :
    (s.rtcSample).rtcNow = s.rtcNow + (Config.clockAnswer s.oracle - s.rtcLast) := rfl
@[simp] theorem State.rtcSample_rtcLast : (s.rtcSample).rtcLast = Config.clockAnswer s.oracle := rfl
@[simp] theorem State.rtcSample_lbaPhysTable : (s.rtcSample).lbaPhysTable = s.lbaPhysTable := rfl
@[simp] theorem State.rtcSample_irqLine : (s.rtcSample).irqLine = s.irqLine := rfl
@[simp] theorem State.rtcSample_disk : (s.rtcSample).disk = s.disk := rfl
@[simp] theorem State.rtcSample_hostMem : (s.rtcSample).hostMem = s.hostMem := rfl
@[simp] theorem State.rtcSample_rom : (s.rtcSample).rom = s.rom := rfl
@[simp] theorem State.rtcSample_sysDataWritten :
    (s.rtcSample).sysDataWritten = s.sysDataWritten := rfl
@[simp] theorem State.rtcSample_pending : (s.rtcSample).pending = s.pending := rfl
@[simp] theorem State.rtcSample_oracle : (s.rtcSample).oracle = s.oracle + 1 := rfl
@[simp] theorem State.rtcSample_diags : (s.rtcSample).diags = s.diags := rfl
@[simp] theorem State.rtcSample_lineCalls : (s.rtcSample).lineCalls = s.lineCalls := rfl
@[simp] theorem State.rtcSample_invalidations : (s.rtcSample).invalidations = s.invalidations := rfl
@[simp] theorem State.rtcSample_readValue : (s.rtcSample).readValue = s.readValue := rfl
@[simp] theorem State.rtcSample_dmaCost : (s.rtcSample).dmaCost = s.dmaCost := rfl

@[simp] theorem State.place_data (op : Operation) : (s.place op).data = s.data := rfl
@[simp] theorem State.place_cmdStatus (op : Operation) : (s.place op).cmdStatus = s.cmdStatus := rfl
@[simp] theorem State.place_curTk (op : Operation) : (s.place op).curTk = s.curTk := rfl
@[simp] theorem State.place_bmStatusCtl (op : Operation) :
    (s.place op).bmStatusCtl = s.bmStatusCtl := rfl
@[simp] theorem State.place_curSector (op : Operation) : (s.place op).curSector = s.curSector := rfl
@[simp] theorem State.place_hardReset (op : Operation) : (s.place op).hardReset = s.hardReset := rfl
@[simp] theorem State.place_hostSecbyte (op : Operation) :
    (s.place op).hostSecbyte = s.hostSecbyte := rfl
@[simp] theorem State.place_secByte (op : Operation) : (s.place op).secByte = s.secByte := rfl
@[simp] theorem State.place_idReg (op : Operation) : (s.place op).idReg = s.idReg := rfl
@[simp] theorem State.place_bmWrite (op : Operation) : (s.place op).bmWrite = s.bmWrite := rfl
@[simp] theorem State.place_bmBlock (op : Operation) : (s.place op).bmBlock = s.bmBlock := rfl
@[simp] theorem State.place_bmZone (op : Operation) : (s.place op).bmZone = s.bmZone := rfl
@[simp] theorem State.place_bmTrackOffset (op : Operation) :
    (s.place op).bmTrackOffset = s.bmTrackOffset := rfl
@[simp] theorem State.place_bmResetHeld (op : Operation) :
    (s.place op).bmResetHeld = s.bmResetHeld := rfl
@[simp] theorem State.place_c2Buf (op : Operation) : (s.place op).c2Buf = s.c2Buf := rfl
@[simp] theorem State.place_dsBuf (op : Operation) : (s.place op).dsBuf = s.dsBuf := rfl
@[simp] theorem State.place_mseqRam (op : Operation) : (s.place op).mseqRam = s.mseqRam := rfl
@[simp] theorem State.place_rtcNow (op : Operation) : (s.place op).rtcNow = s.rtcNow := rfl
@[simp] theorem State.place_rtcLast (op : Operation) : (s.place op).rtcLast = s.rtcLast := rfl
@[simp] theorem State.place_lbaPhysTable (op : Operation) :
    (s.place op).lbaPhysTable = s.lbaPhysTable := rfl
@[simp] theorem State.place_irqLine (op : Operation) : (s.place op).irqLine = s.irqLine := rfl
@[simp] theorem State.place_disk (op : Operation) : (s.place op).disk = s.disk := rfl
@[simp] theorem State.place_hostMem (op : Operation) : (s.place op).hostMem = s.hostMem := rfl
@[simp] theorem State.place_rom (op : Operation) : (s.place op).rom = s.rom := rfl
@[simp] theorem State.place_sysDataWritten (op : Operation) :
    (s.place op).sysDataWritten = s.sysDataWritten := rfl
@[simp] theorem State.place_pending (op : Operation) : (s.place op).pending = op :: s.pending := rfl
@[simp] theorem State.place_oracle (op : Operation) : (s.place op).oracle = s.oracle := rfl
@[simp] theorem State.place_diags (op : Operation) : (s.place op).diags = s.diags := rfl
@[simp] theorem State.place_lineCalls (op : Operation) : (s.place op).lineCalls = s.lineCalls := rfl
@[simp] theorem State.place_invalidations (op : Operation) :
    (s.place op).invalidations = s.invalidations := rfl
@[simp] theorem State.place_readValue (op : Operation) : (s.place op).readValue = s.readValue := rfl
@[simp] theorem State.place_dmaCost (op : Operation) : (s.place op).dmaCost = s.dmaCost := rfl

@[simp] theorem State.returnCost_data (n : Nat) : (s.returnCost n).data = s.data := rfl
@[simp] theorem State.returnCost_cmdStatus (n : Nat) :
    (s.returnCost n).cmdStatus = s.cmdStatus := rfl
@[simp] theorem State.returnCost_curTk (n : Nat) : (s.returnCost n).curTk = s.curTk := rfl
@[simp] theorem State.returnCost_bmStatusCtl (n : Nat) :
    (s.returnCost n).bmStatusCtl = s.bmStatusCtl := rfl
@[simp] theorem State.returnCost_curSector (n : Nat) :
    (s.returnCost n).curSector = s.curSector := rfl
@[simp] theorem State.returnCost_hardReset (n : Nat) :
    (s.returnCost n).hardReset = s.hardReset := rfl
@[simp] theorem State.returnCost_hostSecbyte (n : Nat) :
    (s.returnCost n).hostSecbyte = s.hostSecbyte := rfl
@[simp] theorem State.returnCost_secByte (n : Nat) : (s.returnCost n).secByte = s.secByte := rfl
@[simp] theorem State.returnCost_idReg (n : Nat) : (s.returnCost n).idReg = s.idReg := rfl
@[simp] theorem State.returnCost_bmWrite (n : Nat) : (s.returnCost n).bmWrite = s.bmWrite := rfl
@[simp] theorem State.returnCost_bmBlock (n : Nat) : (s.returnCost n).bmBlock = s.bmBlock := rfl
@[simp] theorem State.returnCost_bmZone (n : Nat) : (s.returnCost n).bmZone = s.bmZone := rfl
@[simp] theorem State.returnCost_bmTrackOffset (n : Nat) :
    (s.returnCost n).bmTrackOffset = s.bmTrackOffset := rfl
@[simp] theorem State.returnCost_bmResetHeld (n : Nat) :
    (s.returnCost n).bmResetHeld = s.bmResetHeld := rfl
@[simp] theorem State.returnCost_c2Buf (n : Nat) : (s.returnCost n).c2Buf = s.c2Buf := rfl
@[simp] theorem State.returnCost_dsBuf (n : Nat) : (s.returnCost n).dsBuf = s.dsBuf := rfl
@[simp] theorem State.returnCost_mseqRam (n : Nat) : (s.returnCost n).mseqRam = s.mseqRam := rfl
@[simp] theorem State.returnCost_rtcNow (n : Nat) : (s.returnCost n).rtcNow = s.rtcNow := rfl
@[simp] theorem State.returnCost_rtcLast (n : Nat) : (s.returnCost n).rtcLast = s.rtcLast := rfl
@[simp] theorem State.returnCost_lbaPhysTable (n : Nat) :
    (s.returnCost n).lbaPhysTable = s.lbaPhysTable := rfl
@[simp] theorem State.returnCost_irqLine (n : Nat) : (s.returnCost n).irqLine = s.irqLine := rfl
@[simp] theorem State.returnCost_disk (n : Nat) : (s.returnCost n).disk = s.disk := rfl
@[simp] theorem State.returnCost_hostMem (n : Nat) : (s.returnCost n).hostMem = s.hostMem := rfl
@[simp] theorem State.returnCost_rom (n : Nat) : (s.returnCost n).rom = s.rom := rfl
@[simp] theorem State.returnCost_sysDataWritten (n : Nat) :
    (s.returnCost n).sysDataWritten = s.sysDataWritten := rfl
@[simp] theorem State.returnCost_pending (n : Nat) : (s.returnCost n).pending = s.pending := rfl
@[simp] theorem State.returnCost_oracle (n : Nat) : (s.returnCost n).oracle = s.oracle := rfl
@[simp] theorem State.returnCost_diags (n : Nat) : (s.returnCost n).diags = s.diags := rfl
@[simp] theorem State.returnCost_lineCalls (n : Nat) :
    (s.returnCost n).lineCalls = s.lineCalls := rfl
@[simp] theorem State.returnCost_invalidations (n : Nat) :
    (s.returnCost n).invalidations = s.invalidations := rfl
@[simp] theorem State.returnCost_readValue (n : Nat) :
    (s.returnCost n).readValue = s.readValue := rfl
@[simp] theorem State.returnCost_dmaCost (n : Nat) :
    (s.returnCost n).dmaCost = some (transferCost n) := rfl

@[simp] theorem State.storeToHost_data (d : Nat) (f : Nat → Byte) (n : Nat) :
    (s.storeToHost d f n).data = s.data := rfl
@[simp] theorem State.storeToHost_cmdStatus (d : Nat) (f : Nat → Byte) (n : Nat) :
    (s.storeToHost d f n).cmdStatus = s.cmdStatus := rfl
@[simp] theorem State.storeToHost_curTk (d : Nat) (f : Nat → Byte) (n : Nat) :
    (s.storeToHost d f n).curTk = s.curTk := rfl
@[simp] theorem State.storeToHost_bmStatusCtl (d : Nat) (f : Nat → Byte) (n : Nat) :
    (s.storeToHost d f n).bmStatusCtl = s.bmStatusCtl := rfl
@[simp] theorem State.storeToHost_curSector (d : Nat) (f : Nat → Byte) (n : Nat) :
    (s.storeToHost d f n).curSector = s.curSector := rfl
@[simp] theorem State.storeToHost_hardReset (d : Nat) (f : Nat → Byte) (n : Nat) :
    (s.storeToHost d f n).hardReset = s.hardReset := rfl
@[simp] theorem State.storeToHost_hostSecbyte (d : Nat) (f : Nat → Byte) (n : Nat) :
    (s.storeToHost d f n).hostSecbyte = s.hostSecbyte := rfl
@[simp] theorem State.storeToHost_secByte (d : Nat) (f : Nat → Byte) (n : Nat) :
    (s.storeToHost d f n).secByte = s.secByte := rfl
@[simp] theorem State.storeToHost_idReg (d : Nat) (f : Nat → Byte) (n : Nat) :
    (s.storeToHost d f n).idReg = s.idReg := rfl
@[simp] theorem State.storeToHost_bmWrite (d : Nat) (f : Nat → Byte) (n : Nat) :
    (s.storeToHost d f n).bmWrite = s.bmWrite := rfl
@[simp] theorem State.storeToHost_bmBlock (d : Nat) (f : Nat → Byte) (n : Nat) :
    (s.storeToHost d f n).bmBlock = s.bmBlock := rfl
@[simp] theorem State.storeToHost_bmZone (d : Nat) (f : Nat → Byte) (n : Nat) :
    (s.storeToHost d f n).bmZone = s.bmZone := rfl
@[simp] theorem State.storeToHost_bmTrackOffset (d : Nat) (f : Nat → Byte) (n : Nat) :
    (s.storeToHost d f n).bmTrackOffset = s.bmTrackOffset := rfl
@[simp] theorem State.storeToHost_bmResetHeld (d : Nat) (f : Nat → Byte) (n : Nat) :
    (s.storeToHost d f n).bmResetHeld = s.bmResetHeld := rfl
@[simp] theorem State.storeToHost_c2Buf (d : Nat) (f : Nat → Byte) (n : Nat) :
    (s.storeToHost d f n).c2Buf = s.c2Buf := rfl
@[simp] theorem State.storeToHost_dsBuf (d : Nat) (f : Nat → Byte) (n : Nat) :
    (s.storeToHost d f n).dsBuf = s.dsBuf := rfl
@[simp] theorem State.storeToHost_mseqRam (d : Nat) (f : Nat → Byte) (n : Nat) :
    (s.storeToHost d f n).mseqRam = s.mseqRam := rfl
@[simp] theorem State.storeToHost_rtcNow (d : Nat) (f : Nat → Byte) (n : Nat) :
    (s.storeToHost d f n).rtcNow = s.rtcNow := rfl
@[simp] theorem State.storeToHost_rtcLast (d : Nat) (f : Nat → Byte) (n : Nat) :
    (s.storeToHost d f n).rtcLast = s.rtcLast := rfl
@[simp] theorem State.storeToHost_lbaPhysTable (d : Nat) (f : Nat → Byte) (n : Nat) :
    (s.storeToHost d f n).lbaPhysTable = s.lbaPhysTable := rfl
@[simp] theorem State.storeToHost_irqLine (d : Nat) (f : Nat → Byte) (n : Nat) :
    (s.storeToHost d f n).irqLine = s.irqLine := rfl
@[simp] theorem State.storeToHost_disk (d : Nat) (f : Nat → Byte) (n : Nat) :
    (s.storeToHost d f n).disk = s.disk := rfl
@[simp] theorem State.storeToHost_hostMem (d : Nat) (f : Nat → Byte) (n : Nat) :
    (s.storeToHost d f n).hostMem = Memory.writeBytes s.hostMem (hostIndex d) f n := rfl
@[simp] theorem State.storeToHost_rom (d : Nat) (f : Nat → Byte) (n : Nat) :
    (s.storeToHost d f n).rom = s.rom := rfl
@[simp] theorem State.storeToHost_sysDataWritten (d : Nat) (f : Nat → Byte) (n : Nat) :
    (s.storeToHost d f n).sysDataWritten = s.sysDataWritten := rfl
@[simp] theorem State.storeToHost_pending (d : Nat) (f : Nat → Byte) (n : Nat) :
    (s.storeToHost d f n).pending = s.pending := rfl
@[simp] theorem State.storeToHost_oracle (d : Nat) (f : Nat → Byte) (n : Nat) :
    (s.storeToHost d f n).oracle = s.oracle := rfl
@[simp] theorem State.storeToHost_diags (d : Nat) (f : Nat → Byte) (n : Nat) :
    (s.storeToHost d f n).diags = s.diags := rfl
@[simp] theorem State.storeToHost_lineCalls (d : Nat) (f : Nat → Byte) (n : Nat) :
    (s.storeToHost d f n).lineCalls = s.lineCalls := rfl
@[simp] theorem State.storeToHost_invalidations (d : Nat) (f : Nat → Byte) (n : Nat) :
    (s.storeToHost d f n).invalidations = s.invalidations := rfl
@[simp] theorem State.storeToHost_readValue (d : Nat) (f : Nat → Byte) (n : Nat) :
    (s.storeToHost d f n).readValue = s.readValue := rfl
@[simp] theorem State.storeToHost_dmaCost (d : Nat) (f : Nat → Byte) (n : Nat) :
    (s.storeToHost d f n).dmaCost = s.dmaCost := rfl

@[simp] theorem State.invalidateCode_data (d : Nat) (n : Nat) :
    (s.invalidateCode d n).data = s.data := rfl
@[simp] theorem State.invalidateCode_cmdStatus (d : Nat) (n : Nat) :
    (s.invalidateCode d n).cmdStatus = s.cmdStatus := rfl
@[simp] theorem State.invalidateCode_curTk (d : Nat) (n : Nat) :
    (s.invalidateCode d n).curTk = s.curTk := rfl
@[simp] theorem State.invalidateCode_bmStatusCtl (d : Nat) (n : Nat) :
    (s.invalidateCode d n).bmStatusCtl = s.bmStatusCtl := rfl
@[simp] theorem State.invalidateCode_curSector (d : Nat) (n : Nat) :
    (s.invalidateCode d n).curSector = s.curSector := rfl
@[simp] theorem State.invalidateCode_hardReset (d : Nat) (n : Nat) :
    (s.invalidateCode d n).hardReset = s.hardReset := rfl
@[simp] theorem State.invalidateCode_hostSecbyte (d : Nat) (n : Nat) :
    (s.invalidateCode d n).hostSecbyte = s.hostSecbyte := rfl
@[simp] theorem State.invalidateCode_secByte (d : Nat) (n : Nat) :
    (s.invalidateCode d n).secByte = s.secByte := rfl
@[simp] theorem State.invalidateCode_idReg (d : Nat) (n : Nat) :
    (s.invalidateCode d n).idReg = s.idReg := rfl
@[simp] theorem State.invalidateCode_bmWrite (d : Nat) (n : Nat) :
    (s.invalidateCode d n).bmWrite = s.bmWrite := rfl
@[simp] theorem State.invalidateCode_bmBlock (d : Nat) (n : Nat) :
    (s.invalidateCode d n).bmBlock = s.bmBlock := rfl
@[simp] theorem State.invalidateCode_bmZone (d : Nat) (n : Nat) :
    (s.invalidateCode d n).bmZone = s.bmZone := rfl
@[simp] theorem State.invalidateCode_bmTrackOffset (d : Nat) (n : Nat) :
    (s.invalidateCode d n).bmTrackOffset = s.bmTrackOffset := rfl
@[simp] theorem State.invalidateCode_bmResetHeld (d : Nat) (n : Nat) :
    (s.invalidateCode d n).bmResetHeld = s.bmResetHeld := rfl
@[simp] theorem State.invalidateCode_c2Buf (d : Nat) (n : Nat) :
    (s.invalidateCode d n).c2Buf = s.c2Buf := rfl
@[simp] theorem State.invalidateCode_dsBuf (d : Nat) (n : Nat) :
    (s.invalidateCode d n).dsBuf = s.dsBuf := rfl
@[simp] theorem State.invalidateCode_mseqRam (d : Nat) (n : Nat) :
    (s.invalidateCode d n).mseqRam = s.mseqRam := rfl
@[simp] theorem State.invalidateCode_rtcNow (d : Nat) (n : Nat) :
    (s.invalidateCode d n).rtcNow = s.rtcNow := rfl
@[simp] theorem State.invalidateCode_rtcLast (d : Nat) (n : Nat) :
    (s.invalidateCode d n).rtcLast = s.rtcLast := rfl
@[simp] theorem State.invalidateCode_lbaPhysTable (d : Nat) (n : Nat) :
    (s.invalidateCode d n).lbaPhysTable = s.lbaPhysTable := rfl
@[simp] theorem State.invalidateCode_irqLine (d : Nat) (n : Nat) :
    (s.invalidateCode d n).irqLine = s.irqLine := rfl
@[simp] theorem State.invalidateCode_disk (d : Nat) (n : Nat) :
    (s.invalidateCode d n).disk = s.disk := rfl
@[simp] theorem State.invalidateCode_hostMem (d : Nat) (n : Nat) :
    (s.invalidateCode d n).hostMem = s.hostMem := rfl
@[simp] theorem State.invalidateCode_rom (d : Nat) (n : Nat) :
    (s.invalidateCode d n).rom = s.rom := rfl
@[simp] theorem State.invalidateCode_sysDataWritten (d : Nat) (n : Nat) :
    (s.invalidateCode d n).sysDataWritten = s.sysDataWritten := rfl
@[simp] theorem State.invalidateCode_pending (d : Nat) (n : Nat) :
    (s.invalidateCode d n).pending = s.pending := rfl
@[simp] theorem State.invalidateCode_oracle (d : Nat) (n : Nat) :
    (s.invalidateCode d n).oracle = s.oracle := rfl
@[simp] theorem State.invalidateCode_diags (d : Nat) (n : Nat) :
    (s.invalidateCode d n).diags = s.diags := rfl
@[simp] theorem State.invalidateCode_lineCalls (d : Nat) (n : Nat) :
    (s.invalidateCode d n).lineCalls = s.lineCalls := rfl
@[simp] theorem State.invalidateCode_invalidations (d : Nat) (n : Nat) :
    (s.invalidateCode d n).invalidations = s.invalidations ++ [(d, n)] := rfl
@[simp] theorem State.invalidateCode_readValue (d : Nat) (n : Nat) :
    (s.invalidateCode d n).readValue = s.readValue := rfl
@[simp] theorem State.invalidateCode_dmaCost (d : Nat) (n : Nat) :
    (s.invalidateCode d n).dmaCost = s.dmaCost := rfl

end Sys2Proof.Machine
end

