-- ==== Sys2Proof/Laws/Flags.lean ====
section
/-! SUPPORT. One bit of a word: what `putBit` leaves in each bit, and the flags after the named updates. -/

namespace Sys2Proof.Machine

/-- What every bit reads after one bit is written. -/
theorem getLsbD_putBit (w : Word) (n k : Nat) (b : Bool) (hn : n < 32) :
    (putBit w n b).getLsbD k = if k = n then b else w.getLsbD k := by
  unfold putBit
  by_cases hk : k < 32
  · cases b
    · rw [if_neg (by decide), BitVec.getLsbD_and, BitVec.getLsbD_not, BitVec.getLsbD_shiftLeft,
        BitVec.getLsbD_one]
      by_cases h : k = n
      · subst h; simp [hk]
      · have : (decide (k < n) = true) ∨ k - n ≠ 0 := by
          by_cases h1 : k < n
          · left; simpa using h1
          · right; omega
        rcases this with h1 | h1 <;> simp [h1, h, hk]
    · rw [if_pos rfl, BitVec.getLsbD_or, BitVec.getLsbD_shiftLeft, BitVec.getLsbD_one]
      by_cases h : k = n
      · subst h; simp [hk]
      · have : (decide (k < n) = true) ∨ k - n ≠ 0 := by
          by_cases h1 : k < n
          · left; simpa using h1
          · right; omega
        rcases this with h1 | h1 <;> simp [h1, h]
  · rw [BitVec.getLsbD_of_ge _ _ (by omega), BitVec.getLsbD_of_ge _ _ (by omega), if_neg (by omega)]

/-- The written bit. -/
theorem getLsbD_putBit_self (w : Word) (n : Nat) (b : Bool) (hn : n < 32) :
    (putBit w n b).getLsbD n = b := by
  rw [getLsbD_putBit w n n b hn, if_pos rfl]

/-- Every other bit. -/
theorem getLsbD_putBit_ne (w : Word) (n k : Nat) (b : Bool) (hn : n < 32) (h : k ≠ n) :
    (putBit w n b).getLsbD k = w.getLsbD k := by
  rw [getLsbD_putBit w n k b hn, if_neg h]

/-- Writing the bit a word already holds changes nothing. -/
theorem putBit_of_getLsbD (w : Word) (n : Nat) (b : Bool) (hn : n < 32) (h : w.getLsbD n = b) :
    putBit w n b = w := by
  apply BitVec.eq_of_getLsbD_eq
  intro k _
  rw [getLsbD_putBit w n k b hn]
  split
  · next hk => rw [hk, h]
  · rfl

/-- A bit inside a mask may be written without setting anything outside it. -/
theorem putBit_within_mask (w m : Word) (n : Nat) (b : Bool) (hn : n < 32) (hm : m.getLsbD n = true)
    (hw : w &&& ~~~m = 0) : putBit w n b &&& ~~~m = 0 := by
  apply BitVec.eq_of_getLsbD_eq
  intro k hk
  have h0 := congrArg (fun x => BitVec.getLsbD x k) hw
  rw [BitVec.getLsbD_and, BitVec.getLsbD_not, getLsbD_putBit w n k b hn]
  simp only [BitVec.getLsbD_and, BitVec.getLsbD_not] at h0
  by_cases h : k = n
  · subst h; simp [hm]
  · rw [if_neg h]; exact h0

variable (s : State) (n : Nat) (b : Bool)

theorem State.putStatus_dataRq (hn : n < 32) :
    (s.putStatus n b).dataRq = if param.stDataRq = n then b else s.dataRq :=
  getLsbD_putBit _ _ _ _ hn

theorem State.putStatus_c2Xfer (hn : n < 32) :
    (s.putStatus n b).c2Xfer = if param.stC2Xfer = n then b else s.c2Xfer :=
  getLsbD_putBit _ _ _ _ hn

theorem State.putStatus_bmErr (hn : n < 32) :
    (s.putStatus n b).bmErr = if param.stBmErr = n then b else s.bmErr :=
  getLsbD_putBit _ _ _ _ hn

theorem State.putStatus_bmInt (hn : n < 32) :
    (s.putStatus n b).bmInt = if param.stBmInt = n then b else s.bmInt :=
  getLsbD_putBit _ _ _ _ hn

theorem State.putStatus_mechaInt (hn : n < 32) :
    (s.putStatus n b).mechaInt = if param.stMechaInt = n then b else s.mechaInt :=
  getLsbD_putBit _ _ _ _ hn

theorem State.putStatus_diskPres (hn : n < 32) :
    (s.putStatus n b).diskPres = if param.stDiskPres = n then b else s.diskPres :=
  getLsbD_putBit _ _ _ _ hn

theorem State.putStatus_rstState (hn : n < 32) :
    (s.putStatus n b).rstState = if param.stRstState = n then b else s.rstState :=
  getLsbD_putBit _ _ _ _ hn

theorem State.putStatus_diskChng (hn : n < 32) :
    (s.putStatus n b).diskChng = if param.stDiskChng = n then b else s.diskChng :=
  getLsbD_putBit _ _ _ _ hn

theorem State.putBms_running (hn : n < 32) :
    (s.putBms n b).running = if param.bmsRunning = n then b else s.running :=
  getLsbD_putBit _ _ _ _ hn

theorem State.putBms_micro (hn : n < 32) :
    (s.putBms n b).micro = if param.bmsMicro = n then b else s.micro :=
  getLsbD_putBit _ _ _ _ hn

theorem State.putBms_continueBlock (hn : n < 32) :
    (s.putBms n b).continueBlock = if param.bmsBlock = n then b else s.continueBlock :=
  getLsbD_putBit _ _ _ _ hn

/-! Raising and clearing a source (R328 to R330): the pending bits and the line. -/

@[simp] theorem State.setIrq_mecha_mechaInt : (s.setIrq .mecha).mechaInt = true :=
  getLsbD_putBit_self _ _ _ (by decide)

@[simp] theorem State.setIrq_mecha_bmInt : (s.setIrq .mecha).bmInt = s.bmInt :=
  getLsbD_putBit_ne _ _ _ _ (by decide) (by decide)

@[simp] theorem State.setIrq_bm_bmInt : (s.setIrq .bm).bmInt = true :=
  getLsbD_putBit_self _ _ _ (by decide)

@[simp] theorem State.setIrq_bm_mechaInt : (s.setIrq .bm).mechaInt = s.mechaInt :=
  getLsbD_putBit_ne _ _ _ _ (by decide) (by decide)

@[simp] theorem State.clrIrq_bm_bmInt : (s.clrIrq .bm).bmInt = false :=
  getLsbD_putBit_self _ _ _ (by decide)

@[simp] theorem State.clrIrq_bm_mechaInt : (s.clrIrq .bm).mechaInt = s.mechaInt :=
  getLsbD_putBit_ne _ _ _ _ (by decide) (by decide)

/-- The line is high after either source is raised. -/
theorem State.setIrq_line (src : IrqSource) : (s.putStatus (irqBit src) true).irqPending = true := by
  cases src
  · have h : (s.putStatus (irqBit .mecha) true).mechaInt = true := getLsbD_putBit_self _ _ _ (by decide)
    simp only [State.irqPending, h, Bool.true_or]
  · have h : (s.putStatus (irqBit .bm) true).bmInt = true := getLsbD_putBit_self _ _ _ (by decide)
    simp only [State.irqPending, h, Bool.or_true]

/-- Acknowledging the block-transfer interrupt leaves the line to the mechanical one. -/
theorem State.clrIrq_bm_line : (s.putStatus (irqBit .bm) false).irqPending = s.mechaInt := by
  have h : (s.putStatus (irqBit .bm) false).bmInt = false := getLsbD_putBit_self _ _ _ (by decide)
  have h2 : (s.putStatus (irqBit .bm) false).mechaInt = s.mechaInt :=
    getLsbD_putBit_ne _ _ _ _ (by decide) (by decide)
  simp only [State.irqPending, h, h2, Bool.or_false]

/-- All that raising a source does (R328, R330). -/
theorem State.setIrq_eq (src : IrqSource) : s.setIrq src =
    { s with
      cmdStatus := putBit s.cmdStatus (irqBit src) true
      irqLine := true
      lineCalls := if true = s.irqLine then s.lineCalls else s.lineCalls ++ [true] } := by
  have h := s.setIrq_line src
  unfold State.setIrq State.updateIrqLine
  rw [h]
  rfl

/-- All that acknowledging the block-transfer interrupt does (R329, R330). -/
theorem State.clrIrq_bm_eq : s.clrIrq .bm =
    { s with
      cmdStatus := putBit s.cmdStatus param.stBmInt false
      irqLine := s.mechaInt
      lineCalls := if s.mechaInt = s.irqLine then s.lineCalls else s.lineCalls ++ [s.mechaInt] } := by
  have h := s.clrIrq_bm_line
  unfold State.clrIrq State.updateIrqLine
  rw [h]
  rfl

end Sys2Proof.Machine
end

