-- ==== Sys2Proof/Laws/Memory.lean ====
section
/-! SUPPORT. The laws of byte memories: a read after a write, a read after a copy, and the canonical form that every
memory operation keeps. -/

namespace Sys2Proof.Machine

@[simp] theorem Memory.read_nil (a : Nat) : Memory.read [] a = Memory.unlisted := rfl

theorem Memory.read_cons_pair (x a : Nat) (v : Byte) (m : Memory) :
    Memory.read ((x, v) :: m) a = if a = x then v else Memory.read m a := rfl

/-- Below the first address of a canonical memory nothing is listed. -/
theorem Memory.read_of_lt {lo a : Nat} {m : Memory} (h : Memory.wfFrom lo m = true) (ha : a < lo) :
    Memory.read m a = Memory.unlisted := by
  induction m generalizing lo with
  | nil => rfl
  | cons c m ih =>
    obtain ⟨x, v⟩ := c
    simp only [Memory.wfFrom, Bool.and_eq_true, decide_eq_true_eq] at h
    rw [Memory.read_cons_pair, if_neg (by omega)]
    exact ih h.2 (by omega)

/-- A canonical form holds from any lower address on. -/
theorem Memory.wfFrom_mono {lo lo' : Nat} {m : Memory} (h : Memory.wfFrom lo m = true) (hl : lo' ≤ lo) :
    Memory.wfFrom lo' m = true := by
  cases m with
  | nil => rfl
  | cons c m =>
    obtain ⟨x, v⟩ := c
    simp only [Memory.wfFrom, Bool.and_eq_true, decide_eq_true_eq] at h ⊢
    exact ⟨⟨by omega, h.1.2⟩, h.2⟩

theorem Memory.wfFrom_cons {lo a : Nat} {b : Byte} {m : Memory} (hl : lo ≤ a)
    (h : Memory.wfFrom (a + 1) m = true) : Memory.wfFrom lo (Memory.cons a b m) = true := by
  unfold Memory.cons
  split
  · exact Memory.wfFrom_mono h (by omega)
  · next hb =>
    simp only [Memory.wfFrom, Bool.and_eq_true, decide_eq_true_eq]
    exact ⟨⟨hl, hb⟩, h⟩

theorem Memory.read_cons {a : Nat} {b : Byte} {m : Memory} (h : Memory.wfFrom (a + 1) m = true) (a' : Nat) :
    Memory.read (Memory.cons a b m) a' = if a' = a then b else Memory.read m a' := by
  unfold Memory.cons
  split
  · next hb =>
    split
    · next ha => rw [ha, Memory.read_of_lt h (by omega), hb]
    · rfl
  · rfl

/-- A write keeps the canonical form. -/
theorem Memory.wfFrom_write {lo : Nat} {m : Memory} (h : Memory.wfFrom lo m = true) {a : Nat} (ha : lo ≤ a)
    (b : Byte) : Memory.wfFrom lo (Memory.write m a b) = true := by
  induction m generalizing lo with
  | nil => exact Memory.wfFrom_cons ha rfl
  | cons c m ih =>
    obtain ⟨x, v⟩ := c
    simp only [Memory.wfFrom, Bool.and_eq_true, decide_eq_true_eq] at h
    simp only [Memory.write]
    split
    · exact Memory.wfFrom_cons ha (by
        simp only [Memory.wfFrom, Bool.and_eq_true, decide_eq_true_eq]
        exact ⟨⟨by omega, h.1.2⟩, h.2⟩)
    · split
      · next hx => exact Memory.wfFrom_cons ha (hx ▸ h.2)
      · simp only [Memory.wfFrom, Bool.and_eq_true, decide_eq_true_eq]
        exact ⟨h.1, ih h.2 (by omega)⟩

/-- Every byte after a write to a canonical memory. -/
theorem Memory.read_write_from {lo : Nat} {m : Memory} (h : Memory.wfFrom lo m = true) (a : Nat) (b : Byte)
    (a' : Nat) : Memory.read (Memory.write m a b) a' = if a' = a then b else Memory.read m a' := by
  induction m generalizing lo with
  | nil => exact Memory.read_cons (m := []) rfl a'
  | cons c m ih =>
    obtain ⟨x, v⟩ := c
    simp only [Memory.wfFrom, Bool.and_eq_true, decide_eq_true_eq] at h
    simp only [Memory.write]
    split
    · exact Memory.read_cons (by
        simp only [Memory.wfFrom, Bool.and_eq_true, decide_eq_true_eq]
        exact ⟨⟨by omega, h.1.2⟩, h.2⟩) a'
    · split
      · next hx =>
        subst hx
        rw [Memory.read_cons h.2 a', Memory.read_cons_pair]
        split <;> rfl
      · rw [Memory.read_cons_pair, Memory.read_cons_pair, ih h.2]
        split
        · next h1 => rw [if_neg (by omega)]
        · rfl

/-- The first law of memory: a read after a write. -/
theorem Memory.read_write {m : Memory} (h : Memory.wf m = true) (a : Nat) (b : Byte) (a' : Nat) :
    Memory.read (Memory.write m a b) a' = if a' = a then b else Memory.read m a' :=
  Memory.read_write_from h a b a'

/-- A write keeps the canonical form. -/
theorem Memory.wf_write {m : Memory} (h : Memory.wf m = true) (a : Nat) (b : Byte) :
    Memory.wf (Memory.write m a b) = true :=
  Memory.wfFrom_write h (Nat.zero_le a) b

/-- A copy keeps the canonical form. -/
theorem Memory.wf_writeBytes {m : Memory} (h : Memory.wf m = true) (dst : Nat → Nat) (src : Nat → Byte)
    (n : Nat) : Memory.wf (Memory.writeBytes m dst src n) = true := by
  induction n with
  | zero => exact h
  | succ n ih => exact Memory.wf_write ih _ _

/-- One more byte of a copy: the last byte written wins. -/
theorem Memory.read_writeBytes_succ {m : Memory} (h : Memory.wf m = true) (dst : Nat → Nat) (src : Nat → Byte)
    (n a : Nat) : Memory.read (Memory.writeBytes m dst src (n + 1)) a =
      if a = dst n then src n else Memory.read (Memory.writeBytes m dst src n) a :=
  Memory.read_write (Memory.wf_writeBytes h dst src n) _ _ _

/-- A byte that no destination of a copy names is unchanged. -/
theorem Memory.read_writeBytes_of_ne {m : Memory} (h : Memory.wf m = true) (dst : Nat → Nat) (src : Nat → Byte)
    (n a : Nat) (hne : ∀ i < n, dst i ≠ a) :
    Memory.read (Memory.writeBytes m dst src n) a = Memory.read m a := by
  induction n with
  | zero => rfl
  | succ n ih =>
    rw [Memory.read_writeBytes_succ h, if_neg (fun e => hne n (Nat.lt_succ_self n) e.symm)]
    exact ih fun i hi => hne i (Nat.lt_succ_of_lt hi)

/-- The byte at a destination of a copy that no later byte overwrites. -/
theorem Memory.read_writeBytes_at {m : Memory} (h : Memory.wf m = true) (dst : Nat → Nat) (src : Nat → Byte)
    (n i : Nat) (hi : i < n) (hlast : ∀ j < n, i < j → dst j ≠ dst i) :
    Memory.read (Memory.writeBytes m dst src n) (dst i) = src i := by
  induction n with
  | zero => omega
  | succ n ih =>
    rw [Memory.read_writeBytes_succ h]
    by_cases e : i = n
    · rw [if_pos (by rw [e]), e]
    · have hin : i < n := by omega
      rw [if_neg (fun e' => hlast n (Nat.lt_succ_self n) hin e'.symm)]
      exact ih hin fun j hj hij => hlast j (Nat.lt_succ_of_lt hj) hij

/-- A copy to consecutive addresses: each byte inside the window is the copied one, each outside is unchanged. -/
theorem Memory.read_writeBytes_window {m : Memory} (h : Memory.wf m = true) (base : Nat) (src : Nat → Byte)
    (n a : Nat) : Memory.read (Memory.writeBytes m (fun i => base + i) src n) a =
      if base ≤ a ∧ a < base + n then src (a - base) else Memory.read m a := by
  split
  · next ha =>
    have e : a = base + (a - base) := by omega
    conv_lhs => rw [e]
    exact Memory.read_writeBytes_at h (fun i => base + i) src n (a - base) (by omega) fun j _ hj => by
      omega
  · next ha =>
    exact Memory.read_writeBytes_of_ne h (fun i => base + i) src n a fun i hi => by
      omega

theorem Memory.below_cons {size a : Nat} {b : Byte} {m : Memory} (ha : a < size)
    (h : Memory.below size m = true) : Memory.below size (Memory.cons a b m) = true := by
  unfold Memory.cons
  split
  · exact h
  · simp only [Memory.below, List.all_cons, Bool.and_eq_true, decide_eq_true_eq] at h ⊢
    exact ⟨ha, h⟩

/-- A write below a size keeps every listed address below it. -/
theorem Memory.below_write {size : Nat} {m : Memory} (h : Memory.below size m = true) {a : Nat} (ha : a < size)
    (b : Byte) : Memory.below size (Memory.write m a b) = true := by
  induction m with
  | nil => exact Memory.below_cons ha rfl
  | cons c m ih =>
    obtain ⟨x, v⟩ := c
    simp only [Memory.write]
    have h2 := h
    simp only [Memory.below, List.all_cons, Bool.and_eq_true, decide_eq_true_eq] at h2
    split
    · exact Memory.below_cons ha h
    · split
      · exact Memory.below_cons ha h2.2
      · simp only [Memory.below, List.all_cons, Bool.and_eq_true, decide_eq_true_eq]
        exact ⟨h2.1, ih h2.2⟩

/-- A copy below a size keeps every listed address below it. -/
theorem Memory.below_writeBytes {size : Nat} {m : Memory} (h : Memory.below size m = true) (dst : Nat → Nat)
    (src : Nat → Byte) (n : Nat) (hd : ∀ i < n, dst i < size) :
    Memory.below size (Memory.writeBytes m dst src n) = true := by
  induction n with
  | zero => exact h
  | succ n ih =>
    exact Memory.below_write (ih fun i hi => hd i (Nat.lt_succ_of_lt hi)) (hd n (Nat.lt_succ_self n)) _

theorem Memory.ext_from {lo : Nat} {m m' : Memory} (h : Memory.wfFrom lo m = true)
    (h' : Memory.wfFrom lo m' = true) (e : ∀ a, Memory.read m a = Memory.read m' a) : m = m' := by
  induction m generalizing lo m' with
  | nil =>
    cases m' with
    | nil => rfl
    | cons c m' =>
      obtain ⟨x, v⟩ := c
      simp only [Memory.wfFrom, Bool.and_eq_true, decide_eq_true_eq] at h'
      have := e x
      rw [Memory.read_cons_pair, if_pos rfl] at this
      exact absurd this.symm h'.1.2
  | cons c m ih =>
    obtain ⟨x, v⟩ := c
    have h2 := h
    simp only [Memory.wfFrom, Bool.and_eq_true, decide_eq_true_eq] at h2
    cases m' with
    | nil =>
      have := e x
      rw [Memory.read_cons_pair, if_pos rfl] at this
      exact absurd this h2.1.2
    | cons c' m' =>
      obtain ⟨x', v'⟩ := c'
      have h3 := h'
      simp only [Memory.wfFrom, Bool.and_eq_true, decide_eq_true_eq] at h3
      have hx : x = x' := by
        rcases Nat.lt_trichotomy x x' with hlt | heq | hgt
        · have := e x
          rw [Memory.read_cons_pair, if_pos rfl, Memory.read_cons_pair, if_neg (by omega),
            Memory.read_of_lt h3.2 (by omega)] at this
          exact absurd this h2.1.2
        · exact heq
        · have := e x'
          rw [Memory.read_cons_pair, if_neg (by omega), Memory.read_of_lt h2.2 (by omega),
            Memory.read_cons_pair, if_pos rfl] at this
          exact absurd this.symm h3.1.2
      subst hx
      have hv : v = v' := by
        have := e x
        rwa [Memory.read_cons_pair, if_pos rfl, Memory.read_cons_pair, if_pos rfl] at this
      subst hv
      have hm : m = m' := ih h2.2 h3.2 fun a => by
        by_cases ha : a = x
        · rw [ha, Memory.read_of_lt h2.2 (by omega), Memory.read_of_lt h3.2 (by omega)]
        · have := e a
          rwa [Memory.read_cons_pair, if_neg ha, Memory.read_cons_pair, if_neg ha] at this
      rw [hm]

/-- Equal memories are equal data: two canonical memories that read the same everywhere are one list. -/
theorem Memory.ext {m m' : Memory} (h : Memory.wf m = true) (h' : Memory.wf m' = true)
    (e : ∀ a, Memory.read m a = Memory.read m' a) : m = m' :=
  Memory.ext_from h h' e

end Sys2Proof.Machine
end

