-- ==== Sys2Proof/Laws/Sequencer.lean ====
section
/-! SUPPORT. What the shared operations of the sequencer can do: each lemma of the form `op s = ⟨s with …⟩` names
every field the operation may write, so that every other field is unchanged by it. -/

namespace Sys2Proof.Machine

/-! `Seek()`. -/

/-- A seek writes the zone, the offset, `BM_STATUS_CTL` and the log, nothing else (R254, R274). -/
theorem seek_eq (s : State) : (seek s).1 =
    { s with
      bmZone := (seek s).1.bmZone
      bmTrackOffset := (seek s).1.bmTrackOffset
      bmStatusCtl := (seek s).1.bmStatusCtl
      diags := (seek s).1.diags } := by
  unfold seek
  split
  · rfl
  · unfold applySeek
    split <;> rfl

/-- A seek leaves `BM_STATUS_CTL` or sets `BMS_MICRO` in it (R258). -/
theorem seek_bmStatusCtl (s : State) : (seek s).1.bmStatusCtl = s.bmStatusCtl ∨
    (seek s).1.bmStatusCtl = putBit s.bmStatusCtl param.bmsMicro true := by
  unfold seek
  split
  · exact .inl rfl
  · unfold applySeek
    split
    · exact .inl rfl
    · exact .inl rfl
    · exact .inl rfl
    · dsimp only
      split
      · exact .inr rfl
      · exact .inl rfl

/-- A seek keeps the running and the continue flag. -/
theorem seek_bms_bit (s : State) (n : Nat) (h : n ≠ param.bmsMicro) :
    (seek s).1.bmStatusCtl.getLsbD n = s.bmStatusCtl.getLsbD n := by
  rcases seek_bmStatusCtl s with e | e <;> rw [e]
  exact getLsbD_putBit_ne _ _ _ _ (by decide) h

/-- The structural cross-check with the predicate of R10 that holds here (R258; log 25). -/
theorem structMismatch_eq (d : Disk) (sysArea : Bool) (offset : Word) : structMismatch d sysArea offset =
    (sysArea && decide (offset.toNat ≠ d.sysOffset) && decide (offset.toNat ≠ d.idOffset)) := rfl

/-- The extent of the system data in bytes (R376; log 44). -/
theorem overSystemData_eq (d : Disk) (offset n : Nat) : overSystemData d offset n =
    decide (offset < 24 * 19720 ∨ (offset < d.sysOffset + 19720 ∧ d.sysOffset < offset + n)) := by
  rw [Bool.decide_or, Bool.decide_and]
  rfl

/-! The sector primitives. -/

/-- A sector read writes `ds_buf` and the log, nothing else (R233). -/
theorem sectorRead_eq (s : State) (failed : Bool) : sectorRead s failed =
    { s with dsBuf := (sectorRead s failed).dsBuf, diags := (sectorRead s failed).diags } := by
  unfold sectorRead
  split
  · rfl
  · split <;> rfl

/-- A sector write writes the image, the note of R376 and the log, nothing else (R234). -/
theorem sectorWrite_eq (s : State) (failed : Bool) : sectorWrite s failed =
    { s with
      disk := (sectorWrite s failed).disk
      sysDataWritten := (sectorWrite s failed).sysDataWritten
      diags := (sectorWrite s failed).diags } := by
  unfold sectorWrite
  split
  · rfl
  · split <;> rfl

/-- A sector write keeps everything of an attachment but the image bytes. -/
theorem sectorWrite_disk (s : State) (failed : Bool) : (sectorWrite s failed).disk =
    s.disk.map fun d => { d with data := ((sectorWrite s failed).disk.map Disk.data).getD d.data } := by
  unfold sectorWrite
  split
  · next h => rw [State.diag_disk, h]; rfl
  · next d h =>
    split
    · rw [State.diag_disk, h]; rfl
    · simp [h]

/-- What a successful sector access moves: read, the bytes of `ds_buf` (R233). -/
theorem sectorRead_of_inImage (s : State) (d : Disk) (hd : s.disk = some d) (hin : s.sectorInImage d = true) :
    sectorRead s false =
      { s with
        dsBuf := Memory.writeBytes s.dsBuf (fun i => i)
          (fun i => Memory.read d.data (s.bmTrackOffset.toNat + i)) s.sectorSize } := by
  unfold sectorRead
  rw [hd]
  simp [hin]

/-- A sector access that moves no bytes emits one diagnostic (R77, R233, R234). -/
theorem sectorRead_of_fail (s : State) (failed : Bool)
    (h : s.disk = none ∨ failed = true ∨ ∃ d, s.disk = some d ∧ s.sectorInImage d = false) :
    sectorRead s failed = s.diag .imageRange s.bmTrackOffset := by
  unfold sectorRead
  rcases h with h | h | ⟨d, h, hr⟩
  · rw [h]
  · subst h
    cases s.disk <;> rfl
  · rw [h]
    simp [hr]

/-- What a successful sector access moves: write, the bytes of the image (R234). -/
theorem sectorWrite_of_inImage (s : State) (d : Disk) (hd : s.disk = some d) (hin : s.sectorInImage d = true) :
    sectorWrite s false =
      { s with
        disk := some { d with
          data := Memory.writeBytes d.data (fun i => s.bmTrackOffset.toNat + i)
            (fun i => Memory.read s.dsBuf i) s.sectorSize }
        sysDataWritten := s.sysDataWritten || overSystemData d s.bmTrackOffset.toNat s.sectorSize } := by
  unfold sectorWrite
  rw [hd]
  simp [hin]

/-- A sector access that moves no bytes emits one diagnostic (R77, R233, R234). -/
theorem sectorWrite_of_fail (s : State) (failed : Bool)
    (h : s.disk = none ∨ failed = true ∨ ∃ d, s.disk = some d ∧ s.sectorInImage d = false) :
    sectorWrite s failed = s.diag .imageRange s.bmTrackOffset := by
  unfold sectorWrite
  rcases h with h | h | ⟨d, h, hr⟩
  · rw [h]
  · subst h
    cases s.disk <;> rfl
  · rw [h]
    simp [hr]

/-- The seek and the read of one step: the fields they write. -/
theorem seekAndRead_eq (s : State) : seekAndRead s =
    { s with
      bmZone := (seek s).1.bmZone
      bmTrackOffset := (seek s).1.bmTrackOffset
      bmStatusCtl := (seek s).1.bmStatusCtl
      dsBuf := (seekAndRead s).dsBuf
      diags := (seekAndRead s).diags } := by
  exact (sectorRead_eq _ _).trans (congrArg (fun x : State =>
    { x with dsBuf := (seekAndRead s).dsBuf, diags := (seekAndRead s).diags }) (seek_eq s))

/-- The seek and the write of one step: the fields they write. -/
theorem seekAndWrite_eq (s : State) : seekAndWrite s =
    { s with
      bmZone := (seek s).1.bmZone
      bmTrackOffset := (seek s).1.bmTrackOffset
      bmStatusCtl := (seek s).1.bmStatusCtl
      disk := (seekAndWrite s).disk
      sysDataWritten := (seekAndWrite s).sysDataWritten
      diags := (seekAndWrite s).diags } := by
  exact (sectorWrite_eq _ _).trans (congrArg (fun x : State =>
    { x with
      disk := (seekAndWrite s).disk
      sysDataWritten := (seekAndWrite s).sysDataWritten
      diags := (seekAndWrite s).diags }) (seek_eq s))

/-! The branches and the step. -/

/-- What a write-direction step can write (R223 to R226). -/
theorem writeBranch_eq (s : State) : writeBranch s =
    { s with
      cmdStatus := (writeBranch s).cmdStatus
      bmStatusCtl := (writeBranch s).bmStatusCtl
      curSector := (writeBranch s).curSector
      bmBlock := (writeBranch s).bmBlock
      bmZone := (writeBranch s).bmZone
      bmTrackOffset := (writeBranch s).bmTrackOffset
      disk := (writeBranch s).disk
      sysDataWritten := (writeBranch s).sysDataWritten
      diags := (writeBranch s).diags } := by
  have h := seekAndWrite_eq s
  unfold writeBranch
  generalize seekAndWrite s = y at h ⊢
  rw [h]
  dsimp only
  split_ifs <;> rfl

/-- What a read-direction step can write (R227 to R231). -/
theorem readBranch_eq (s : State) : readBranch s =
    { s with
      cmdStatus := (readBranch s).cmdStatus
      bmStatusCtl := (readBranch s).bmStatusCtl
      curSector := (readBranch s).curSector
      bmBlock := (readBranch s).bmBlock
      bmZone := (readBranch s).bmZone
      bmTrackOffset := (readBranch s).bmTrackOffset
      c2Buf := (readBranch s).c2Buf
      dsBuf := (readBranch s).dsBuf
      diags := (readBranch s).diags } := by
  have h := seekAndRead_eq s
  unfold readBranch
  generalize seekAndRead s = y at h ⊢
  generalize s.curSector.toNat = c
  generalize hz : zeroFillC2 s.c2Buf (c - Config.sectorsPerBlock) = z
  rw [h]
  dsimp only
  by_cases h1 : quirk s = true
  · rw [if_pos h1]; rfl
  rw [if_neg h1]
  by_cases h2 : c ≤ 84
  · rw [if_pos h2]; rfl
  rw [if_neg h2]
  by_cases h3 : c ≤ 88
  · rw [if_pos h3]
  rw [if_neg h3]
  by_cases h4 : c = Config.gapSector
  · rw [if_pos h4]
    cases s.continueBlock <;> rfl
  · rw [if_neg h4]; rfl

/-- What a step can write (R238): every other field is unchanged by it. -/
theorem bmStep_eq (s : State) : bmStep s =
    { s with
      cmdStatus := (bmStep s).cmdStatus
      bmStatusCtl := (bmStep s).bmStatusCtl
      curSector := (bmStep s).curSector
      bmBlock := (bmStep s).bmBlock
      bmZone := (bmStep s).bmZone
      bmTrackOffset := (bmStep s).bmTrackOffset
      c2Buf := (bmStep s).c2Buf
      dsBuf := (bmStep s).dsBuf
      irqLine := (bmStep s).irqLine
      disk := (bmStep s).disk
      sysDataWritten := (bmStep s).sysDataWritten
      diags := (bmStep s).diags
      lineCalls := (bmStep s).lineCalls } := by
  have hw := writeBranch_eq s
  have hr := readBranch_eq s
  unfold bmStep
  generalize writeBranch s = y at hw ⊢
  generalize readBranch s = z at hr ⊢
  by_cases h1 : s.running = true
  · rw [if_pos h1]
    by_cases h2 : s.bmWrite = true
    · rw [if_pos h2, hw]; rfl
    · rw [if_neg h2, hr]; rfl
  · rw [if_neg h1]

/-- A step of a sequencer that is not running is no step (R221). -/
theorem bmStep_not_running (s : State) (h : s.running = false) : bmStep s = s := by
  unfold bmStep
  rw [h]
  rfl

/-- A running step is its direction's branch, then `SetIrq(BM)` (R220, R232). -/
theorem bmStep_running (s : State) (h : s.running = true) :
    bmStep s = (if s.bmWrite then writeBranch s else readBranch s).setIrq .bm := by
  unfold bmStep
  rw [h]
  rfl

end Sys2Proof.Machine
end

