-- ==== Sys2Proof/Laws/BmControl.lean ====
section
/-! SUPPORT. Each part of the BM control write as one record update: the fields it may write, every other field
unchanged. -/

namespace Sys2Proof.Machine

variable (v : Word) (s : State)

/-- Part 1 (R201). -/
theorem bmPartSector_eq : bmPartSector v s =
    { s with
      bmBlock := if bmcSector v = 0x00 then false else if bmcSector v = 0x5A then true else s.bmBlock
      curSector := if bmcSector v = 0x00 ∨ bmcSector v = 0x5A then 0 else s.curSector
      diags :=
        if bmcSector v = 0x00 ∨ bmcSector v = 0x5A then s.diags
        else s.diags ++ [{ code := .startSector, info := (bmcSector v).setWidth 32 }] } := by
  unfold bmPartSector Config.startByteBlock0 Config.startByteBlock1
  by_cases h : bmcSector v = 0x00
  · simp only [h, if_true, true_or]
  · by_cases h2 : bmcSector v = 0x5A
    · rw [if_neg h, if_pos h2]
      simp only [h2, or_true, if_true, if_neg (show ¬ ((0x5A : BitVec 8) = 0x00) by decide)]
    · rw [if_neg h, if_neg h2]
      simp only [h, h2, or_self, if_false]
      rfl

/-- Part 2 (R202). -/
theorem bmPartMechaRst_eq : bmPartMechaRst v s =
    { s with
      cmdStatus := if v.getLsbD param.bmcMechaRst then putBit s.cmdStatus param.stMechaInt false else s.cmdStatus } := by
  unfold bmPartMechaRst
  split <;> rfl

/-- Part 3 (R203). -/
theorem bmPartBlkTrans_eq : bmPartBlkTrans v s =
    { s with
      bmStatusCtl := if v.getLsbD param.bmcBlkTrans then putBit s.bmStatusCtl param.bmsBlock true else s.bmStatusCtl } := by
  unfold bmPartBlkTrans
  split <;> rfl

/-- Part 4 (R204): the latch always follows the bit; the reset proper acts when the bit falls. -/
theorem bmPartReset_eq : bmPartReset v s =
    { (if !v.getLsbD param.bmcReset && s.bmResetHeld then bmReset s else s) with
      bmResetHeld := v.getLsbD param.bmcReset } := by
  unfold bmPartReset
  cases h : v.getLsbD param.bmcReset
  · rw [if_neg (by decide)]
    by_cases h2 : s.bmResetHeld = true
    · rw [if_pos h2, h2]; rfl
    · have h3 : s.bmResetHeld = false := by simpa using h2
      have h4 : { s with bmResetHeld := false } = s := by rw [← h3]
      rw [if_neg h2, h3]
      exact h4.symm
  · rw [if_pos rfl]; rfl

end Sys2Proof.Machine
end

