-- ==== Sys2Proof/Laws/Decode.lean ====
section
/-! SUPPORT. The fields of the words the encoder builds and of pair words, and what the decoder can answer: only
well-formed operations. -/

namespace Sys2Proof.Machine

open Sys2Proof

/-! A field of a word and the bits around it. -/

section
variable {n m : Nat} (lsb : Nat)

/-- Every bit of a word with a field put into it. -/
theorem getLsbD_wordAround (f : BitVec n) (r : BitVec m) (k : Nat) (hw : m + n = 32) (hm : lsb ≤ m) :
    (wordAround lsb f r).getLsbD k =
      if k < lsb then r.getLsbD k else if k < lsb + n then f.getLsbD (k - lsb) else r.getLsbD (k - n) := by
  simp only [wordAround, BitVec.getLsbD_or, BitVec.getLsbD_setWidth, BitVec.getLsbD_shiftLeft,
    BitVec.getLsbD_ushiftRight]
  by_cases h1 : k < lsb
  · simp [h1, show k < 32 by omega, show k < lsb + n by omega]
  rw [if_neg h1]
  by_cases h2 : k < lsb + n
  · simp [h1, h2, show k < 32 by omega, show k - lsb < 32 by omega]
  rw [if_neg h2]
  have hf : f.getLsbD (k - lsb) = false := BitVec.getLsbD_of_ge _ _ (by omega)
  by_cases h3 : k < 32
  · simp [h1, h2, h3, hf, show lsb + (k - (lsb + n)) = k - n by omega, show k - (lsb + n) < 32 by omega]
  · simp [h1, h3]
    exact BitVec.getLsbD_of_ge _ _ (by omega)

/-- Every bit of what stands around a field. -/
theorem getLsbD_restAround (w : Word) (k : Nat) (h : k < m) :
    (restAround n m lsb w).getLsbD k = if k < lsb then w.getLsbD k else w.getLsbD (k + n) := by
  simp only [restAround, BitVec.getLsbD_or, BitVec.getLsbD_setWidth, BitVec.getLsbD_shiftLeft,
    BitVec.getLsbD_ushiftRight]
  by_cases h1 : k < lsb
  · simp [h1, h]
  · simp [h1, h, show lsb + n + (k - lsb) = k + n by omega, show k - lsb < m by omega]

/-- The field put into a word is the field read from it. -/
theorem extractLsb'_wordAround (f : BitVec n) (r : BitVec m) (hw : m + n = 32) (hm : lsb ≤ m) :
    (wordAround lsb f r).extractLsb' lsb n = f := by
  apply BitVec.eq_of_getLsbD_eq
  intro k hk
  rw [BitVec.getLsbD_extractLsb', getLsbD_wordAround lsb f r _ hw hm, if_neg (by omega), if_pos (by omega)]
  simp [hk]

/-- The bits put around a field are the bits read around it. -/
theorem restAround_wordAround (f : BitVec n) (r : BitVec m) (hw : m + n = 32) (hm : lsb ≤ m) :
    restAround n m lsb (wordAround lsb f r) = r := by
  apply BitVec.eq_of_getLsbD_eq
  intro k hk
  rw [getLsbD_restAround lsb _ k hk, getLsbD_wordAround lsb f r _ hw hm, getLsbD_wordAround lsb f r _ hw hm]
  split
  · rfl
  · rw [if_neg (by omega), if_neg (by omega), Nat.add_sub_cancel]

/-- A word is its field with the bits around it. -/
theorem wordAround_extractLsb' (w : Word) (hw : m + n = 32) (hm : lsb ≤ m) :
    wordAround lsb (w.extractLsb' lsb n) (restAround n m lsb w) = w := by
  apply BitVec.eq_of_getLsbD_eq
  intro k hk
  rw [getLsbD_wordAround lsb _ _ k hw hm]
  split
  · next h => rw [getLsbD_restAround lsb w k (by omega), if_pos h]
  · split
    · next h h2 =>
      rw [BitVec.getLsbD_extractLsb', show lsb + (k - lsb) = k by omega]
      simp [show k - lsb < n by omega]
    · rw [getLsbD_restAround lsb w _ (by omega), if_neg (by omega), show k - n + n = k by omega]

end

/-! Command words. -/

@[simp] theorem cmdOp_cmdWord (op : BitVec 8) (r : BitVec 24) : cmdOp (cmdWord op r) = op :=
  extractLsb'_wordAround _ op r rfl (by decide)

@[simp] theorem cmdRest_cmdWord (op : BitVec 8) (r : BitVec 24) : cmdRest (cmdWord op r) = r :=
  restAround_wordAround _ op r rfl (by decide)

@[simp] theorem cmdWord_cmdOp_cmdRest (w : Word) : cmdWord (cmdOp w) (cmdRest w) = w :=
  wordAround_extractLsb' _ w rfl (by decide)

/-- At the default position the opcode is the upper byte (D7). -/
theorem cmdWord_eq (op : BitVec 8) (r : BitVec 24) : cmdWord op r = op ++ r := by
  apply BitVec.eq_of_getLsbD_eq
  intro k hk
  rw [cmdWord, getLsbD_wordAround _ op r k rfl (by decide), BitVec.getLsbD_append, show param.cmdOpLsb = 24 from rfl]
  split <;> rfl

/-! Control words. -/

@[simp] theorem bmcSector_controlWordSector (b : BitVec 8) (r : BitVec 24) : bmcSector (controlWordSector b r) = b :=
  extractLsb'_wordAround _ b r rfl (by decide)

@[simp] theorem bmcSectorRest_controlWordSector (b : BitVec 8) (r : BitVec 24) :
    bmcSectorRest (controlWordSector b r) = r :=
  restAround_wordAround _ b r rfl (by decide)

@[simp] theorem controlWordSector_bmcSector (w : Word) : controlWordSector (bmcSector w) (bmcSectorRest w) = w :=
  wordAround_extractLsb' _ w rfl (by decide)

/-- The bit put into a control word. -/
theorem controlWordBit_bit (bit : Nat) (b : Bool) (r : BitVec 31) (h : bit ≤ 31) :
    (controlWordBit bit b r).getLsbD bit = b := by
  rw [controlWordBit, getLsbD_wordAround bit _ r bit rfl h, if_neg (by omega), if_pos (by omega), Nat.sub_self]
  cases b <;> rfl

/-- The bits put around it. -/
theorem bmcBitRest_controlWordBit (bit : Nat) (b : Bool) (r : BitVec 31) (h : bit ≤ 31) :
    bmcBitRest bit (controlWordBit bit b r) = r :=
  restAround_wordAround bit _ r rfl h

/-- A control word is its bit with the bits around it. -/
theorem controlWordBit_getLsbD (bit : Nat) (w : Word) (h : bit ≤ 31) :
    controlWordBit bit (w.getLsbD bit) (bmcBitRest bit w) = w := by
  have e : BitVec.ofBool (w.getLsbD bit) = w.extractLsb' bit 1 := by
    apply BitVec.eq_of_getLsbD_eq
    intro k hk
    rw [BitVec.getLsbD_extractLsb', show k = 0 by omega]
    simp
  rw [controlWordBit, e]
  exact wordAround_extractLsb' bit w rfl h

/-- At the default position the start-sector byte is bits 23:16 (R108). -/
theorem controlWordSector_append (hi b : BitVec 8) (lo : BitVec 16) :
    controlWordSector b (hi ++ lo) = hi ++ b ++ lo := by
  apply BitVec.eq_of_getLsbD_eq
  intro k hk
  rw [controlWordSector, getLsbD_wordAround _ b _ k rfl (by decide), show param.bmcSectorLsb = 16 from rfl]
  simp only [BitVec.getLsbD_append]
  by_cases h1 : k < 16
  · simp only [h1, if_true]
  · rw [if_neg h1, if_neg h1]
    by_cases h2 : k < 24
    · rw [if_pos h2, if_pos (by omega)]
    · rw [if_neg h2, if_neg (by omega), if_neg (by omega), show k - 8 - 16 = k - 16 - 8 by omega]

/-- A control word around one bit is the bits above it, the bit and the bits below it. -/
theorem controlWordBit_append {h l : Nat} (b : Bool) (hi : BitVec h) (lo : BitVec l) (e : h + l = 31) (k : Nat)
    (hk : k < 32) : (controlWordBit l b ((hi ++ lo).cast e)).getLsbD k = (hi ++ BitVec.ofBool b ++ lo).getLsbD k := by
  rw [controlWordBit, getLsbD_wordAround l _ _ k rfl (by omega)]
  simp only [BitVec.getLsbD_cast, BitVec.getLsbD_append]
  by_cases h1 : k < l
  · simp only [h1, if_true]
  · rw [if_neg h1, if_neg h1]
    by_cases h2 : k < l + 1
    · rw [if_pos h2, if_pos (by omega)]
    · rw [if_neg h2, if_neg (by omega), if_neg (by omega), show k - 1 - l = k - l - 1 by omega]

theorem controlWordMechaRst_append (hi : BitVec 7) (lo : BitVec 24) :
    controlWordBit param.bmcMechaRst true (hi ++ lo) = hi ++ 1#1 ++ lo :=
  BitVec.eq_of_getLsbD_eq (controlWordBit_append true hi lo rfl)

theorem controlWordBlkTrans_append (hi : BitVec 6) (lo : BitVec 25) :
    controlWordBit param.bmcBlkTrans true (hi ++ lo) = hi ++ 1#1 ++ lo :=
  BitVec.eq_of_getLsbD_eq (controlWordBit_append true hi lo rfl)

theorem controlWordReset_append (hi : BitVec 3) (b : Bool) (lo : BitVec 28) :
    controlWordBit param.bmcReset b (hi ++ lo) = hi ++ BitVec.ofBool b ++ lo :=
  BitVec.eq_of_getLsbD_eq (controlWordBit_append b hi lo rfl)

theorem controlWordStart_append (lo : BitVec 31) : controlWordBit param.bmcStart true lo = 1#1 ++ lo := by
  apply BitVec.eq_of_getLsbD_eq
  intro k hk
  rw [controlWordBit, getLsbD_wordAround _ _ lo k rfl (by decide), BitVec.getLsbD_append,
    show param.bmcStart = 31 from rfl]
  split <;> rfl

/-! Pair words. -/

/-- A pair word: the first BCD byte in bits 31:24, the second in bits 23:16, zeros below (R114). -/
theorem time2data_eq (a b : Int) : time2data a b = byte2bcd a ++ byte2bcd b ++ 0#16 := by
  unfold time2data
  generalize byte2bcd a = x
  generalize byte2bcd b = y
  apply BitVec.eq_of_toNat_eq
  have hx := x.isLt
  have hy := y.isLt
  simp only [BitVec.toNat_append, BitVec.toNat_or, BitVec.toNat_shiftLeft, BitVec.toNat_setWidth, BitVec.toNat_ofNat,
    Nat.shiftLeft_eq]
  rw [Nat.mod_eq_of_lt (by omega : x.toNat < 2 ^ 32), Nat.mod_eq_of_lt (by omega : y.toNat < 2 ^ 32),
    Nat.mod_eq_of_lt (by omega : x.toNat * 2 ^ 24 < 2 ^ 32), Nat.mod_eq_of_lt (by omega : y.toNat * 2 ^ 16 < 2 ^ 32)]
  rw [Nat.zero_mod, Nat.or_zero, ← Nat.shiftLeft_eq, ← Nat.shiftLeft_eq, ← Nat.shiftLeft_eq, ← Nat.shiftLeft_eq,
    Nat.shiftLeft_or_distrib, ← Nat.shiftLeft_add]

/-! Addresses. -/

/-- The bus address of a register is aligned and decodes to it (R71, R72). -/
theorem decodeAddress_regAddress (r : Reg) :
    aligned (regAddress r) = true ∧ decodeAddress (regAddress r) = .reg r := by
  cases r <;> decide

/-- The bus address of a microsequencer word is aligned and decodes to it (R71, R72). -/
theorem decodeAddress_mseqAddress (k : Fin 16) :
    aligned (mseqAddress k) = true ∧ decodeAddress (mseqAddress k) = .mseq k := by
  revert k
  decide

/-! What the decoder answers is well formed. -/

theorem wellFormed_ite {c : Prop} [Decidable c] {a b : Instr} (ha : c → a.wellFormed = true)
    (hb : ¬c → b.wellFormed = true) : (if c then a else b).wellFormed = true := by
  by_cases h : c
  · rw [if_pos h]; exact ha h
  · rw [if_neg h]; exact hb h

theorem commandOf_wellFormed (op : BitVec 8) (r : BitVec 24) : (commandOf op r).wellFormed = true := by
  unfold commandOf
  refine wellFormed_ite (fun _ => rfl) fun h1 => ?_
  refine wellFormed_ite (fun _ => rfl) fun h2 => ?_
  refine wellFormed_ite (fun _ => rfl) fun h3 => ?_
  refine wellFormed_ite (fun _ => rfl) fun h4 => ?_
  refine wellFormed_ite (fun _ => rfl) fun h5 => ?_
  refine wellFormed_ite (fun _ => rfl) fun h6 => ?_
  refine wellFormed_ite (fun _ => rfl) fun h7 => ?_
  refine wellFormed_ite (fun _ => rfl) fun h8 => ?_
  refine wellFormed_ite (fun _ => rfl) fun h9 => ?_
  refine wellFormed_ite (fun _ => rfl) fun h10 => ?_
  refine wellFormed_ite (fun _ => rfl) fun h11 => ?_
  refine wellFormed_ite (fun _ => rfl) fun h12 => ?_
  refine wellFormed_ite (fun _ => rfl) fun h13 => ?_
  refine wellFormed_ite (fun _ => rfl) fun h14 => ?_
  refine wellFormed_ite (fun _ => rfl) fun h15 => ?_
  refine wellFormed_ite (fun _ => rfl) fun h16 => ?_
  refine wellFormed_ite (fun _ => rfl) fun h17 => ?_
  refine wellFormed_ite (fun _ => rfl) fun h18 => ?_
  refine wellFormed_ite (fun _ => rfl) fun h19 => ?_
  refine wellFormed_ite (fun _ => rfl) fun h20 => ?_
  refine decide_eq_true (p := op ∉ namedOps) ?_
  simp only [namedOps, List.mem_cons, List.not_mem_nil, or_false, not_or]
  exact ⟨h1, h2, h3, h4, h5, h6, h7, h8, h9, h10, h11,
    h12, h13, h14, h15, h16, h17, h18, h19, h20⟩

theorem decodeRead_wellFormed {a : Word} {i : Instr} (h : decodeRead a = .ok i) : i.wellFormed = true := by
  unfold decodeRead at h
  split at h
  · next ha =>
    cases h
    split
    · next r _ => cases r <;> rfl
    · rfl
    · next hd => simp [Instr.wellFormed, undefAddress, ha, hd]
    · next hd => simp [Instr.wellFormed, undefAddress, ha, hd]
  · cases h

theorem decodeWrite_wellFormed {a v m : Word} {i : Instr} (h : decodeWrite a v m = .ok i) :
    i.wellFormed = true := by
  unfold decodeWrite at h
  split at h
  · cases h
  · split at h
    · next ha =>
      cases h
      split
      · next r _ => cases r <;> rfl
      · rfl
      · next hd => simp [Instr.wellFormed, undefAddress, ha, hd]
      · next hd => simp [Instr.wellFormed, undefAddress, ha, hd]
    · cases h

theorem decodeBmctl_wellFormed {p : BmPart} {w : Word} {i : Instr} (h : decodeBmctl p w = .ok i) :
    i.wellFormed = true := by
  cases p <;> simp only [decodeBmctl] at h <;> split at h <;> cases h
  all_goals first
    | rfl
    | (simp only [Instr.wellFormed, decide_eq_true_eq]; assumption)

/-- Only well-formed operations come out of the decoder. -/
theorem decode_wellFormed {op : Operation} {i : Instr} (h : decode op = .ok i) : i.wellFormed = true := by
  cases op with
  | mmioRd a => exact decodeRead_wellFormed h
  | mmioWr a v m => exact decodeWrite_wellFormed h
  | cmd w => cases h; exact commandOf_wellFormed _ _
  | bmctl p w => exact decodeBmctl_wellFormed h
  | attach image =>
    simp only [decode] at h
    split at h
    · next hw => cases h; exact hw
    · cases h
  | step | cartAddr _ | dmaToHost _ _ _ | dmaFromHost _ _ _ | detach | powerOn => cases h; rfl

end Sys2Proof.Machine
end

