-- ==== Sys2Proof/Laws/Ports.lean ====
section
/-! SUPPORT. The DMA range decode by its bus addresses, and the entries of the table an attachment builds. -/

namespace Sys2Proof.Machine

/-- The range decode (R83) by the addresses of R71. -/
theorem dmaRange_eq (romSize : Nat) (a : Word) : dmaRange romSize a =
    if 0x05000000 ≤ a.toNat ∧ a.toNat < 0x05000000 + 1024 then .c2
    else if 0x05000400 ≤ a.toNat ∧ a.toNat < 0x05000400 + 256 then .ds
    else if 0x06000000 ≤ a.toNat ∧ a.toNat < 0x06000000 + romSize then .rom
    else .nothing := rfl

theorem dmaRange_of_c2 (romSize : Nat) {a : Word} (h : 0x05000000 ≤ a.toNat ∧ a.toNat ≤ 0x050003FF) :
    dmaRange romSize a = .c2 := by
  rw [dmaRange_eq]
  exact if_pos (by omega)

theorem dmaRange_of_ds (romSize : Nat) {a : Word} (h : 0x05000400 ≤ a.toNat ∧ a.toNat ≤ 0x050004FF) :
    dmaRange romSize a = .ds := by
  rw [dmaRange_eq, if_neg (by omega)]
  exact if_pos (by omega)

theorem dmaRange_of_rom (romSize : Nat) {a : Word}
    (h : 0x06000000 ≤ a.toNat ∧ a.toNat < 0x06000000 + romSize) : dmaRange romSize a = .rom := by
  rw [dmaRange_eq, if_neg (by omega), if_neg (by omega)]
  exact if_pos h

theorem dmaRange_of_nothing (romSize : Nat) {a : Word}
    (hc : ¬ (0x05000000 ≤ a.toNat ∧ a.toNat ≤ 0x050003FF)) (hd : ¬ (0x05000400 ≤ a.toNat ∧ a.toNat ≤ 0x050004FF))
    (hr : ¬ (0x06000000 ≤ a.toNat ∧ a.toNat < 0x06000000 + romSize)) : dmaRange romSize a = .nothing := by
  rw [dmaRange_eq, if_neg (by omega), if_neg (by omega)]
  exact if_neg hr

/-- How many bytes a ROM transfer moves (R291). -/
theorem romBytes_eq (s : State) (cart : Word) (length : Nat) :
    romBytes s cart length = min length (s.rom.size - (cart.toNat - 0x06000000)) := by
  rfl

/-- The cost of a transfer is within one of n times the ratio (R294). -/
theorem transferCost_bounds (n : Nat) :
    transferCost n * (Config.dmaCostDen + 1) < n * Config.dmaCostNum + (Config.dmaCostDen + 1) ∧
      n * Config.dmaCostNum < transferCost n * (Config.dmaCostDen + 1) + (Config.dmaCostDen + 1) := by
  unfold transferCost
  generalize n * Config.dmaCostNum = a
  generalize hd : Config.dmaCostDen + 1 = d
  have hm : a % d < d := Nat.mod_lt _ (by omega)
  have e : d * (a / d) + a % d = a := Nat.div_add_mod a d
  rw [Nat.mul_comm d] at e
  dsimp only
  split
  · next h => rw [Nat.add_mul]; omega
  · rw [Nat.add_zero]; omega

/-- With a mask of 0 a byte lane is its own index (R295). -/
@[simp] theorem lane_eq (i : Nat) : lane i = i := Nat.xor_zero i

/-- The indices of a transfer's bytes (R83, R291). -/
theorem c2Index_eq (cart : Word) : c2Index cart = fun i => (cart.toNat - 0x05000000 + i) % 1024 :=
  funext fun _ => lane_eq _

theorem dsIndex_eq (cart : Word) : dsIndex cart = fun i => (cart.toNat - 0x05000400 + i) % 256 :=
  funext fun _ => lane_eq _

theorem romIndex_eq (cart : Word) : romIndex cart = fun i => cart.toNat - 0x06000000 + i :=
  funext fun _ => lane_eq _

theorem hostIndex_eq (dram : Nat) : hostIndex dram = fun i => dram + i :=
  funext fun _ => lane_eq _

/-- Every byte of host memory after n bytes arrive (R291). -/
theorem read_storeToHost {s : State} (h : Memory.wf s.hostMem = true) (dram : Nat) (src : Nat → Byte) (n a : Nat) :
    Memory.read (s.storeToHost dram src n).hostMem a =
      if dram ≤ a ∧ a < dram + n then src (a - dram) else Memory.read s.hostMem a := by
  rw [State.storeToHost, hostIndex_eq]
  exact Memory.read_writeBytes_window h dram src n a

/-- What power-on leaves of an attachment: its bytes, size, format and flag (R360, R376). -/
theorem withSystemData_eq (d : Disk) (r : SystemData) : withSystemData d r =
    { d with
      type := (withSystemData d r).type
      defects := (withSystemData d r).defects
      sysOffset := (withSystemData d r).sysOffset
      idOffset := (withSystemData d r).idOffset } := rfl

/-- Metadata read anew keep an attachment well formed (R253). -/
theorem withSystemData_wellFormed {d : Disk} (r : SystemData) (h : d.wellFormed = true) :
    (withSystemData d r).wellFormed = true := by
  simp only [Disk.wellFormed, Bool.and_eq_true, decide_eq_true_eq] at h ⊢
  obtain ⟨⟨⟨⟨h1, h2⟩, h3⟩, -⟩, -⟩ := h
  have h0 : 0 < d.size := by omega
  exact ⟨⟨⟨⟨h1, h2⟩, Nat.mod_lt _ h0⟩, Nat.mod_lt _ h0⟩,
    Bool.or_eq_true_iff.mpr (.inr (decide_eq_true r.type.isLt))⟩

/-- Power-on rereads nothing unless an `LBA` image's system data was overwritten (R360, R376). -/
theorem diskAtPowerOn_eq_disk (s : State)
    (h : s.sysDataWritten = false ∨ ∀ d, s.disk = some d → d.format ≠ .lba) : diskAtPowerOn s = s.disk := by
  unfold diskAtPowerOn
  cases hd : s.disk with
  | none => rfl
  | some d =>
    refine congrArg some (if_neg fun hc => ?_)
    rcases h with h | h
    · rw [h] at hc; exact absurd hc.2 (by decide)
    · exact h d hd hc.1

/-- The table an attachment builds has one entry per LBA (R41, R271). -/
theorem buildTable_length (d : Disk) : (buildTable d).length = Config.maxLba + 1 := by
  unfold buildTable
  rw [List.length_map, List.length_range]

/-- Its entries are the forward function's values (R271). -/
theorem buildTable_getElem? (d : Disk) {l : Nat} (h : l ≤ Config.maxLba) :
    (buildTable d)[l]? = some (lbaToPhys d.type d.defects l) := by
  unfold buildTable
  rw [List.getElem?_map, List.getElem?_range (by omega)]
  rfl

end Sys2Proof.Machine
end

