-- ==== Sys2Proof/Laws/Geometry.lean ====
section
/-! SUPPORT. The packed physical coordinate fits 14 bits (R115), and what the reverse lookup answers. -/

namespace Sys2Proof.Machine

/-- A packed coordinate has bits 15:14 zero (R115). -/
theorem packPhys_lt (track : Nat) {head block : Nat} (hh : head ≤ 1) (hb : block ≤ 1) :
    (packPhys track head block).toNat < 2 ^ 14 := by
  change (BitVec.ofNat 16 (track &&& 0xFFF ||| head <<< 12 ||| block <<< 13)).toNat < 2 ^ 14
  have h1 : track &&& 0xFFF < 2 ^ 14 := Nat.lt_of_le_of_lt Nat.and_le_right (by decide)
  have h2 : head <<< 12 < 2 ^ 14 := by rw [Nat.shiftLeft_eq]; omega
  have h3 : block <<< 13 < 2 ^ 14 := by rw [Nat.shiftLeft_eq]; omega
  rw [BitVec.toNat_ofNat]
  exact Nat.lt_of_le_of_lt (Nat.mod_le _ _) (Nat.or_lt_two_pow (Nat.or_lt_two_pow h1 h2) h3)

theorem headOf_le (pz : Fin 16) : headOf pz ≤ 1 := by
  unfold headOf
  split <;> decide

theorem blockOf_le (lba : Nat) : blockOf lba ≤ 1 := by
  unfold blockOf
  split <;> decide

theorem lbaToPhys_lt (type : Nat) (defects : Vector (List Nat) 16) (lba : Nat) :
    (lbaToPhys type defects lba).toNat < 2 ^ 14 :=
  packPhys_lt _ (headOf_le _) (blockOf_le _)

/-- A coordinate that is no entry is not found (R272). -/
theorem physToLba_of_not_mem {table : List (BitVec 16)} {coord : BitVec 16} (h : coord ∉ table) :
    physToLba table coord = Config.lbaNotFound := by
  unfold physToLba
  have : table.findIdx? (· == coord) = none := by
    rw [List.findIdx?_eq_none_iff]
    intro x hx
    simp only [beq_eq_false_iff_ne]
    rintro rfl
    exact h hx
  rw [this]
  rfl

/-- No entry of a built table has bit 14 or 15. -/
theorem not_mem_buildTable (d : Disk) {coord : BitVec 16} (h : 2 ^ 14 ≤ coord.toNat) : coord ∉ buildTable d := by
  unfold buildTable
  rw [List.mem_map]
  rintro ⟨l, -, rfl⟩
  exact absurd (lbaToPhys_lt d.type d.defects l) (by omega)

end Sys2Proof.Machine
end

