-- ==== Sys2Proof/Laws/PerInstr.lean ====
section
/-! SUPPORT. Statements for all instructions, one lemma per constructor: whatever operation decodes to an instruction,
the instruction is well formed. -/

namespace Sys2Proof.Laws.DecodedWellFormed

/-- An instruction that some operation decodes to is well formed. -/
def Statement (i : Instr) : Prop := ∀ op : Operation, decode op = .ok i → i.wellFormed = true

theorem noop (ignored : BitVec 24) : Statement (.noop ignored) :=
  fun _ h => Machine.decode_wellFormed h
theorem seekRead (ignored : BitVec 24) : Statement (.seekRead ignored) :=
  fun _ h => Machine.decode_wellFormed h
theorem seekWrite (ignored : BitVec 24) : Statement (.seekWrite ignored) :=
  fun _ h => Machine.decode_wellFormed h
theorem recalibrate (ignored : BitVec 24) : Statement (.recalibrate ignored) :=
  fun _ h => Machine.decode_wellFormed h
theorem sleep (ignored : BitVec 24) : Statement (.sleep ignored) :=
  fun _ h => Machine.decode_wellFormed h
theorem start (ignored : BitVec 24) : Statement (.start ignored) :=
  fun _ h => Machine.decode_wellFormed h
theorem clrDskChng (ignored : BitVec 24) : Statement (.clrDskChng ignored) :=
  fun _ h => Machine.decode_wellFormed h
theorem clrReset (ignored : BitVec 24) : Statement (.clrReset ignored) :=
  fun _ h => Machine.decode_wellFormed h
theorem readVersion (ignored : BitVec 24) : Statement (.readVersion ignored) :=
  fun _ h => Machine.decode_wellFormed h
theorem setDiskType (ignored : BitVec 24) : Statement (.setDiskType ignored) :=
  fun _ h => Machine.decode_wellFormed h
theorem requestStatus (ignored : BitVec 24) : Statement (.requestStatus ignored) :=
  fun _ h => Machine.decode_wellFormed h
theorem standby (ignored : BitVec 24) : Statement (.standby ignored) :=
  fun _ h => Machine.decode_wellFormed h
theorem idxLockRetry (ignored : BitVec 24) : Statement (.idxLockRetry ignored) :=
  fun _ h => Machine.decode_wellFormed h
theorem setYearMonth (ignored : BitVec 24) : Statement (.setYearMonth ignored) :=
  fun _ h => Machine.decode_wellFormed h
theorem setDayHour (ignored : BitVec 24) : Statement (.setDayHour ignored) :=
  fun _ h => Machine.decode_wellFormed h
theorem setMinSec (ignored : BitVec 24) : Statement (.setMinSec ignored) :=
  fun _ h => Machine.decode_wellFormed h
theorem getYearMonth (ignored : BitVec 24) : Statement (.getYearMonth ignored) :=
  fun _ h => Machine.decode_wellFormed h
theorem getDayHour (ignored : BitVec 24) : Statement (.getDayHour ignored) :=
  fun _ h => Machine.decode_wellFormed h
theorem getMinSec (ignored : BitVec 24) : Statement (.getMinSec ignored) :=
  fun _ h => Machine.decode_wellFormed h
theorem featureInq (ignored : BitVec 24) : Statement (.featureInq ignored) :=
  fun _ h => Machine.decode_wellFormed h
theorem cmdOther (op : BitVec 8) (ignored : BitVec 24) : Statement (.cmdOther op ignored) :=
  fun _ h => Machine.decode_wellFormed h
theorem rdData : Statement .rdData :=
  fun _ h => Machine.decode_wellFormed h
theorem rdCmdStatus : Statement .rdCmdStatus :=
  fun _ h => Machine.decode_wellFormed h
theorem rdCurTk : Statement .rdCurTk :=
  fun _ h => Machine.decode_wellFormed h
theorem rdBmStatusCtl : Statement .rdBmStatusCtl :=
  fun _ h => Machine.decode_wellFormed h
theorem rdCurSector : Statement .rdCurSector :=
  fun _ h => Machine.decode_wellFormed h
theorem rdHardReset : Statement .rdHardReset :=
  fun _ h => Machine.decode_wellFormed h
theorem rdHostSecbyte : Statement .rdHostSecbyte :=
  fun _ h => Machine.decode_wellFormed h
theorem rdSecByte : Statement .rdSecByte :=
  fun _ h => Machine.decode_wellFormed h
theorem rdIdReg : Statement .rdIdReg :=
  fun _ h => Machine.decode_wellFormed h
theorem wrData (value : Word) : Statement (.wrData value) :=
  fun _ h => Machine.decode_wellFormed h
theorem wrCmdStatus (value : Word) : Statement (.wrCmdStatus value) :=
  fun _ h => Machine.decode_wellFormed h
theorem wrCurTk (value : Word) : Statement (.wrCurTk value) :=
  fun _ h => Machine.decode_wellFormed h
theorem wrBmStatusCtl (value : Word) : Statement (.wrBmStatusCtl value) :=
  fun _ h => Machine.decode_wellFormed h
theorem wrCurSector (value : Word) : Statement (.wrCurSector value) :=
  fun _ h => Machine.decode_wellFormed h
theorem wrHardReset (value : Word) : Statement (.wrHardReset value) :=
  fun _ h => Machine.decode_wellFormed h
theorem wrHostSecbyte (value : Word) : Statement (.wrHostSecbyte value) :=
  fun _ h => Machine.decode_wellFormed h
theorem wrSecByte (value : Word) : Statement (.wrSecByte value) :=
  fun _ h => Machine.decode_wellFormed h
theorem wrIdReg (value : Word) : Statement (.wrIdReg value) :=
  fun _ h => Machine.decode_wellFormed h
theorem bmctlSector00 (hi : BitVec 8) (lo : BitVec 16) : Statement (.bmctlSector00 hi lo) :=
  fun _ h => Machine.decode_wellFormed h
theorem bmctlSector5A (hi : BitVec 8) (lo : BitVec 16) : Statement (.bmctlSector5A hi lo) :=
  fun _ h => Machine.decode_wellFormed h
theorem bmctlSectorOther (hi : BitVec 8) (sector : BitVec 8) (lo : BitVec 16) : Statement (.bmctlSectorOther hi sector lo) :=
  fun _ h => Machine.decode_wellFormed h
theorem bmctlMechaRst (hi : BitVec 7) (lo : BitVec 24) : Statement (.bmctlMechaRst hi lo) :=
  fun _ h => Machine.decode_wellFormed h
theorem bmctlBlkTrans (hi : BitVec 6) (lo : BitVec 25) : Statement (.bmctlBlkTrans hi lo) :=
  fun _ h => Machine.decode_wellFormed h
theorem bmctlReset (hi : BitVec 3) (lo : BitVec 28) : Statement (.bmctlReset hi lo) :=
  fun _ h => Machine.decode_wellFormed h
theorem bmctlResetRelease (hi : BitVec 3) (lo : BitVec 28) : Statement (.bmctlResetRelease hi lo) :=
  fun _ h => Machine.decode_wellFormed h
theorem bmctlStart (lo : BitVec 31) : Statement (.bmctlStart lo) :=
  fun _ h => Machine.decode_wellFormed h
theorem rdMseq (k : Fin 16) : Statement (.rdMseq k) :=
  fun _ h => Machine.decode_wellFormed h
theorem wrMseq (k : Fin 16) (value : Word) : Statement (.wrMseq k value) :=
  fun _ h => Machine.decode_wellFormed h
theorem rdUndef (address : Word) : Statement (.rdUndef address) :=
  fun _ h => Machine.decode_wellFormed h
theorem wrUndef (address : Word) (value : Word) : Statement (.wrUndef address value) :=
  fun _ h => Machine.decode_wellFormed h
theorem step : Statement .step :=
  fun _ h => Machine.decode_wellFormed h
theorem cartAddr (address : Word) : Statement (.cartAddr address) :=
  fun _ h => Machine.decode_wellFormed h
theorem dmaToHost (cartAddr : Word) (dramAddr length : Nat) : Statement (.dmaToHost cartAddr dramAddr length) :=
  fun _ h => Machine.decode_wellFormed h
theorem dmaFromHost (cartAddr : Word) (dramAddr length : Nat) : Statement (.dmaFromHost cartAddr dramAddr length) :=
  fun _ h => Machine.decode_wellFormed h
theorem attach (image : Disk) : Statement (.attach image) :=
  fun _ h => Machine.decode_wellFormed h
theorem detach : Statement .detach :=
  fun _ h => Machine.decode_wellFormed h
theorem powerOn : Statement .powerOn :=
  fun _ h => Machine.decode_wellFormed h

end Sys2Proof.Laws.DecodedWellFormed
end

