-- ==== Sys2Proof/Tests/Slice0.lean ====
section
/-! SUPPORT. Tests: ill-formed terms refused, words written out from the spec's encodings, one-step vectors of
spec/95_test_vectors.md (its names T3, K2, B7, … stand in the docstrings), and a state for the hypotheses of each
statement. -/

namespace Sys2Proof.Tests

open Sys2Proof.Machine Sys2Proof.Spec

/-- The state an operation leaves. -/
def ran (i : Instr) (s : State) : State :=
  match exec i s with
  | .next t => t
  | _ => s

def noDefects : Vector (List Nat) 16 := Vector.replicate 16 []

/-- The disk `F7` of 95_test_vectors.md, with three of its bytes. -/
def f7 : Disk :=
  { size := 0x435B0C0, data := [(0x43670, 0x13), (0x43671, 0x1A), (0x48290, 0xF3)], format := .flat, dev := false
    sysOffset := 0, idOffset := 0x43670, type := 0, defects := noDefects }

/-- The disk `L0` of 95_test_vectors.md, with one of its bytes. -/
def l0 : Disk :=
  { size := 0x3DEC800, data := [(0x3E968, 0xDB)], format := .lba, dev := false
    sysOffset := 0, idOffset := 0x3E968, type := 0, defects := noDefects }

/-- Power-on with `F7` attached. -/
def ready : State := { State.reset with cmdStatus := 0x01400000, disk := some f7 }

/-- A running sequencer on track 7 of `F7`: status word, direction, sector index. -/
def running (w : Bool) (sector : Word) : State :=
  { ready with cmdStatus := 0x01400000, curTk := 0x60000007, bmStatusCtl := 0x80000000, bmWrite := w
               curSector := sector }

/-! ## WellFormed: one ill-formed term for each check -/

theorem test_namedOpcode_refused : (Instr.cmdOther 0x00 0).wellFormed = false := by decide
theorem test_lastNamedOpcode_refused : (Instr.cmdOther 0x1B 0).wellFormed = false := by decide
theorem test_sectorOther00_refused : (Instr.bmctlSectorOther 0 0x00 0).wellFormed = false := by decide
theorem test_sectorOther5A_refused : (Instr.bmctlSectorOther 0 0x5A 0).wellFormed = false := by decide
theorem test_rdUndefRegister_refused : (Instr.rdUndef 0x05000508).wellFormed = false := by decide
theorem test_rdUndefMisaligned_refused : (Instr.rdUndef 0x05000505).wellFormed = false := by decide
theorem test_wrUndefMseq_refused : (Instr.wrUndef 0x050005BC 0).wellFormed = false := by decide
theorem test_wrUndefMisaligned_refused : (Instr.wrUndef 0x05000506 0).wellFormed = false := by decide
theorem test_imageUnsorted_refused : (Instr.attach { f7 with data := [(5, 1), (4, 1)] }).wellFormed = false := by decide
theorem test_imageBeyondSize_refused : (Instr.attach { f7 with data := [(0x435B0C0, 1)] }).wellFormed = false := by
  decide
theorem test_sysOffset_refused : (Instr.attach { f7 with sysOffset := 0x435B0C0 }).wellFormed = false := by decide
theorem test_idOffset_refused : (Instr.attach { f7 with idOffset := 0x435B0C0 }).wellFormed = false := by decide
theorem test_diskType7_refused : (Instr.attach { l0 with type := 7 }).wellFormed = false := by decide
theorem test_flatType7_accepted : (Instr.attach { f7 with type := 7 }).wellFormed = true := by decide

/-! ## Decode: words written out from R71, R101 to R104 and R108 -/

theorem test_decode_commands1 :
    decode (.cmd 0x00123456) = .ok (.noop 0x123456) ∧
    decode (.cmd 0x01FFFFFF) = .ok (.seekRead 0xFFFFFF) ∧
    decode (.cmd 0x02000000) = .ok (.seekWrite 0) ∧
    decode (.cmd 0x03000001) = .ok (.recalibrate 1) ∧
    decode (.cmd 0x04000000) = .ok (.sleep 0) ∧
    decode (.cmd 0x05000000) = .ok (.start 0) ∧
    decode (.cmd 0x08000000) = .ok (.clrDskChng 0) ∧
    decode (.cmd 0x09000000) = .ok (.clrReset 0) ∧
    decode (.cmd 0x0A000000) = .ok (.readVersion 0) ∧
    decode (.cmd 0x0B000000) = .ok (.setDiskType 0) ∧
    decode (.cmd 0x0C000000) = .ok (.requestStatus 0) := by
  decide

theorem test_decode_commands2 :
    decode (.cmd 0x0D000000) = .ok (.standby 0) ∧
    decode (.cmd 0x0E000000) = .ok (.idxLockRetry 0) ∧
    decode (.cmd 0x0F000000) = .ok (.setYearMonth 0) ∧
    decode (.cmd 0x10000000) = .ok (.setDayHour 0) ∧
    decode (.cmd 0x11000000) = .ok (.setMinSec 0) ∧
    decode (.cmd 0x12000000) = .ok (.getYearMonth 0) ∧
    decode (.cmd 0x13000000) = .ok (.getDayHour 0) ∧
    decode (.cmd 0x14000000) = .ok (.getMinSec 0) ∧
    decode (.cmd 0x1B000000) = .ok (.featureInq 0) ∧
    decode (.cmd 0x06000000) = .ok (.cmdOther 0x06 0) ∧
    decode (.cmd 0xFF000000) = .ok (.cmdOther 0xFF 0) := by
  decide

theorem test_decode_reads :
    decode (.mmioRd 0x05000500) = .ok .rdData ∧
    decode (.mmioRd 0x05000508) = .ok .rdCmdStatus ∧
    decode (.mmioRd 0x0500050C) = .ok .rdCurTk ∧
    decode (.mmioRd 0x05000510) = .ok .rdBmStatusCtl ∧
    decode (.mmioRd 0x0500051C) = .ok .rdCurSector ∧
    decode (.mmioRd 0x05000520) = .ok .rdHardReset ∧
    decode (.mmioRd 0x05000528) = .ok .rdHostSecbyte ∧
    decode (.mmioRd 0x05000530) = .ok .rdSecByte ∧
    decode (.mmioRd 0x05000540) = .ok .rdIdReg ∧
    decode (.mmioRd 0x05000580) = .ok (.rdMseq 0) ∧
    decode (.mmioRd 0x050005BC) = .ok (.rdMseq 15) ∧
    decode (.mmioRd 0x05000504) = .ok (.rdUndef 0x05000504) ∧
    decode (.mmioRd 0x050005C0) = .ok (.rdUndef 0x050005C0) := by
  decide

theorem test_decode_writes :
    decode (.mmioWr 0x05000500 7 0xFFFFFFFF) = .ok (.wrData 7) ∧
    decode (.mmioWr 0x05000508 7 0xFFFFFFFF) = .ok (.wrCmdStatus 7) ∧
    decode (.mmioWr 0x0500050C 7 0xFFFFFFFF) = .ok (.wrCurTk 7) ∧
    decode (.mmioWr 0x05000510 7 0xFFFFFFFF) = .ok (.wrBmStatusCtl 7) ∧
    decode (.mmioWr 0x0500051C 7 0xFFFFFFFF) = .ok (.wrCurSector 7) ∧
    decode (.mmioWr 0x05000520 7 0xFFFFFFFF) = .ok (.wrHardReset 7) ∧
    decode (.mmioWr 0x05000528 7 0xFFFFFFFF) = .ok (.wrHostSecbyte 7) ∧
    decode (.mmioWr 0x05000530 7 0xFFFFFFFF) = .ok (.wrSecByte 7) ∧
    decode (.mmioWr 0x05000540 7 0xFFFFFFFF) = .ok (.wrIdReg 7) ∧
    decode (.mmioWr 0x05000584 7 0xFFFFFFFF) = .ok (.wrMseq 1 7) ∧
    decode (.mmioWr 0x05000504 7 0xFFFFFFFF) = .ok (.wrUndef 0x05000504 7) := by
  decide

theorem test_decode_control :
    decode (.bmctl .sector00 0x01001234) = .ok (.bmctlSector00 0x01 0x1234) ∧
    decode (.bmctl .sector5A 0x805A0001) = .ok (.bmctlSector5A 0x80 0x0001) ∧
    decode (.bmctl .sectorOther 0x02330000) = .ok (.bmctlSectorOther 0x02 0x33 0) ∧
    decode (.bmctl .mechaRst 0x01000000) = .ok (.bmctlMechaRst 0 0) ∧
    decode (.bmctl .blkTrans 0x82005678) = .ok (.bmctlBlkTrans 0x20 0x5678) ∧
    decode (.bmctl .reset 0x90000000) = .ok (.bmctlReset 0x4 0) ∧
    decode (.bmctl .resetRelease 0x805A0000) = .ok (.bmctlResetRelease 0x4 0x05A0000) ∧
    decode (.bmctl .start 0xC2000000) = .ok (.bmctlStart 0x42000000) := by
  decide

theorem test_decode_ports :
    decode .step = .ok .step ∧ decode (.cartAddr 0x05000400) = .ok (.cartAddr 0x05000400) ∧
    decode (.dmaToHost 1 2 3) = .ok (.dmaToHost 1 2 3) ∧ decode (.dmaFromHost 1 2 3) = .ok (.dmaFromHost 1 2 3) ∧
    decode (.attach f7) = .ok (.attach f7) ∧ decode .detach = .ok .detach ∧ decode .powerOn = .ok .powerOn := by
  decide

theorem test_decode_refusals :
    decode (.mmioRd 0x05000501) = .error .misalignedAddress ∧
    decode (.mmioWr 0x05000502 0 0xFFFFFFFF) = .error .misalignedAddress ∧
    decode (.mmioWr 0x05000500 0 0x0000FFFF) = .error .partialWriteMask ∧
    decode (.bmctl .start 0x40000000) = .error .notInControlWord ∧
    decode (.attach { l0 with type := 7 }) = .error .illFormedImage := by
  decide

theorem test_tableWords :
    decodeTableWord 32 0x09000000 = some (.clrReset 0) ∧ decodeTableWord 32 0x05000520 = some .rdHardReset ∧
    decodeTableWord 32 0x005A0000 = some (.bmctlSector5A 0 0) ∧
    decodeTableWord 32 0x80000000 = some (.bmctlStart 0) := by
  decide

theorem test_fetchWord_runs :
    (match step (State.reset.withFetchWord 32 0x09000000) with
      | .next t => t.cmdStatus
      | _ => 0) = 0x02000000 := by
  decide

/-! ## Commands (K1 to K17) -/

/-- K1. -/
theorem test_noop : (ran (.noop 0) ready).cmdStatus = 0x03400000 ∧ (ran (.noop 0) ready).irqLine = true ∧
    (ran (.noop 0) ready).diags = [⟨.cmdUnimpl, 0⟩] := by decide
/-- K2. -/
theorem test_seekRead : (ran (.seekRead 0) { ready with data := 0x00070000, bmWrite := true }).curTk = 0x60000007 ∧
    (ran (.seekRead 0) { ready with data := 0x00070000, bmWrite := true }).bmWrite = false := by decide
/-- K5. -/
theorem test_seekRead_noRangeCheck :
    (ran (.seekRead 0) { ready with data := 0xFFFF1234 }).curTk = 0x6000FFFF := by decide
/-- K3. -/
theorem test_seekWrite : (ran (.seekWrite 0) { ready with data := 0x00070000 }).curTk = 0x60000007 ∧
    (ran (.seekWrite 0) { ready with data := 0x00070000 }).bmWrite = true := by decide
/-- K16, one command each. -/
theorem test_recalibrate : (ran (.recalibrate 0) ready).diags = [⟨.cmdUnimpl, 0x03000000⟩] := by decide
theorem test_sleep : (ran (.sleep 0) ready).diags = [⟨.cmdUnimpl, 0x04000000⟩] := by decide
theorem test_start : (ran (.start 0) ready).diags = [⟨.cmdUnimpl, 0x05000000⟩] := by decide
theorem test_readVersion : (ran (.readVersion 0) ready).diags = [⟨.cmdUnimpl, 0x0A000000⟩] := by decide
theorem test_requestStatus : (ran (.requestStatus 0) ready).diags = [⟨.cmdUnimpl, 0x0C000000⟩] := by decide
theorem test_standby : (ran (.standby 0) ready).diags = [⟨.cmdUnimpl, 0x0D000000⟩] := by decide
theorem test_idxLockRetry : (ran (.idxLockRetry 0) ready).diags = [⟨.cmdUnimpl, 0x0E000000⟩] := by decide
theorem test_setYearMonth : (ran (.setYearMonth 0) ready).cmdStatus = 0x03400000 := by decide
theorem test_setDayHour : (ran (.setDayHour 0) ready).cmdStatus = 0x03400000 := by decide
theorem test_setMinSec : (ran (.setMinSec 0) ready).cmdStatus = 0x03400000 := by decide
/-- K15. -/
theorem test_cmdOther : (ran (.cmdOther 0xFF 0) ready).cmdStatus = 0x03400000 := by decide
/-- K7. -/
theorem test_clrDskChng : (ran (.clrDskChng 0) { ready with cmdStatus := 0x01410000 }).cmdStatus = 0x03400000 := by
  decide
/-- K8. -/
theorem test_clrReset : (ran (.clrReset 0) { ready with cmdStatus := 0x01410000 }).cmdStatus = 0x03000000 := by decide
/-- K9. -/
theorem test_setDiskType : (ran (.setDiskType 0) { ready with data := 5 }).diags = [⟨.setDiskType, 5⟩] := by decide
/-- K13. -/
theorem test_featureInq : (ran (.featureInq 0) { ready with data := 0x12345678 }).data = 0 := by decide
/-- X11: the sampled time is the clock's answer, the emulated time advances by the difference. -/
theorem test_getYearMonth_clock : (ran (.getYearMonth 0) { ready with rtcNow := 7, rtcLast := 3 }).rtcNow =
    7 + (Config.clockAnswer 0 - 3) ∧ (ran (.getYearMonth 0) ready).rtcLast = Config.clockAnswer 0 := ⟨rfl, rfl⟩
theorem test_getDayHour_clock : (ran (.getDayHour 0) ready).oracle = 1 := rfl
theorem test_getMinSec_clock : (ran (.getMinSec 0) ready).cmdStatus = 0x03400000 := by decide
/-- K10 to K12: the pairs of 2026-11-10 12:50:07. -/
theorem test_rtcPairs :
    yearMonthPair ⟨2026, 10, 9, 12, 50, 7⟩ = 0x26110000 ∧ dayHourPair ⟨2026, 10, 9, 12, 50, 7⟩ = 0x10120000 ∧
    minSecPair ⟨2026, 10, 9, 12, 50, 7⟩ = 0x50070000 := by decide
/-- X12. -/
theorem test_bcd : [0, 9, 10, 59, 99, 100, 126, 255].map byte2bcd =
    [0x00, 0x09, 0x10, 0x59, 0x99, 0x00, 0x26, 0x55] := by decide
/-- K6. -/
theorem test_wrCmdStatus : (ran (.wrCmdStatus 0x01FFFFFF) { ready with data := 0x00070000 }).curTk = 0x60000007 := by
  decide

/-! ## Register accesses (M1 to M18) -/

/-- M17. -/
theorem test_data : (ran .rdData (ran (.wrData 0x10060000) ready)).readValue = some 0x10060000 ∧
    (ran (.wrData 0x10060000) ready).curTk = 0 := by decide
/-- M3. -/
theorem test_rdCmdStatus_refresh : (ran .rdCmdStatus { ready with disk := none }).readValue = some 0x00400000 := by
  decide
/-- M5. -/
theorem test_rdCmdStatus_steps :
    (ran .rdCmdStatus { running false 86 with cmdStatus := 0x05000000, irqLine := true }).readValue = some 0x05000000 ∧
    (ran .rdCmdStatus { running false 86 with cmdStatus := 0x05000000, irqLine := true }).curSector = 87 ∧
    (ran .rdCmdStatus { running false 86 with cmdStatus := 0x05000000, irqLine := true }).cmdStatus = 0x05000000 := by
  decide
theorem test_rdCurTk : (ran .rdCurTk (running true 0)).readValue = some 0x60000007 := by decide
theorem test_rdBmStatusCtl : (ran .rdBmStatusCtl (running true 0)).readValue = some 0x80000000 := by decide
/-- R135. -/
theorem test_rdCurSector : (ran .rdCurSector (running true 85)).readValue = some 0x55 := by decide
/-- M13. -/
theorem test_rdHardReset : (ran .rdHardReset ready).readValue = some 0 := by decide
/-- M18. -/
theorem test_hostSecbyte : (ran .rdHostSecbyte (ran (.wrHostSecbyte 0x00E70000) ready)).readValue =
    some 0x00E70000 := rfl
theorem test_secByte : (ran .rdSecByte (ran (.wrSecByte 5) ready)).readValue = some 5 := rfl
/-- M15. -/
theorem test_rdIdReg : (ran .rdIdReg ready).readValue = some 0x00030000 := by decide
/-- M16. -/
theorem test_wrCurTk : (ran (.wrCurTk 5) ready).curTk = 0 ∧
    (ran (.wrCurTk 5) ready).diags = [⟨.writeUnspec, 0x0500050C⟩] := by decide
theorem test_wrCurSector : (ran (.wrCurSector 5) ready).curSector = 0 := by decide
theorem test_wrIdReg : (ran (.wrIdReg 5) ready).idReg = 0x00030000 := by decide
/-- M13, M14. -/
theorem test_wrHardReset :
    (ran (.wrHardReset 0xAAAA0000) { ready with cmdStatus := 0x01000000 }).cmdStatus = 0x01400000 ∧
    (ran (.wrHardReset 0xAAAA0000) { ready with cmdStatus := 0x01000000 }).diags = [] ∧
    (ran (.wrHardReset 0) { ready with cmdStatus := 0x00400000 }).diags = [⟨.hardResetMagic, 0⟩] := by decide
/-- M12. -/
theorem test_mseq : (ran (.rdMseq 0) (ran (.wrMseq 0 0xDEADBEEF) ready)).readValue = some 0xDEADBEEF ∧
    (ran (.rdMseq 15) (ran (.wrMseq 0 0xDEADBEEF) ready)).readValue = some 0 := by decide
/-- M9, M10. -/
theorem test_undef : (ran (.rdUndef 0x05000504) ready).readValue = some 0 ∧
    (ran (.wrUndef 0x05000504 0x12345678) ready).diags = [⟨.addrWrite, 0x05000504⟩] := by decide

/-! ## The control write (B1 to B11) -/

/-- B1. -/
theorem test_mechaRst :
    (ran (.bmctlMechaRst 0 0) { ready with cmdStatus := 0x03000000, irqLine := true }).cmdStatus = 0x01000000 ∧
    (ran (.bmctlMechaRst 0 0) { ready with cmdStatus := 0x03000000, irqLine := true }).irqLine = false := by decide
/-- B2. -/
theorem test_blkTrans : (ran (.bmctlBlkTrans 0 0) ready).bmStatusCtl = 0x01000000 := by decide
/-- B3. -/
theorem test_sector5A : (ran (.bmctlSector5A 0 0) { ready with curSector := 40 }).bmBlock = true ∧
    (ran (.bmctlSector5A 0 0) { ready with curSector := 40 }).curSector = 0 := by decide
/-- B11. -/
theorem test_sector00 : (ran (.bmctlSector00 0 0) { ready with curSector := 40, bmBlock := true }).bmBlock = false ∧
    (ran (.bmctlSector00 0 0) { ready with curSector := 40, bmBlock := true }).curSector = 0 := by decide
/-- B4. -/
theorem test_sectorOther :
    (ran (.bmctlSectorOther 0 0x33 0) { ready with curSector := 40, bmBlock := true }).curSector = 40 ∧
    (ran (.bmctlSectorOther 0 0x33 0) { ready with curSector := 40, bmBlock := true }).diags =
      [⟨.startSector, 0x33⟩] := by decide
/-- B6. -/
theorem test_reset : (ran (.bmctlReset 0 0) ready).bmResetHeld = true ∧
    (ran (.bmctlReset 0 0) { ready with cmdStatus := 0x5D000000 }).cmdStatus = 0x5D000000 := by decide
/-- The states before T6's second write and before B7. -/
def resetting : State :=
  { ready with
    cmdStatus := 0x5D000000
    bmStatusCtl := 0x83000000
    curSector := 40
    bmBlock := true
    bmResetHeld := true
    irqLine := true }

def releasing : State := { resetting with cmdStatus := 0x5F410000, curSector := 88 }

/-- T6. -/
theorem test_resetRelease :
    (ran (.bmctlResetRelease 0 0) resetting).cmdStatus = 0x01000000 ∧
    (ran (.bmctlResetRelease 0 0) resetting).bmStatusCtl = 0 := by decide
/-- B8. -/
theorem test_start_mode :
    (ran (.bmctlStart 0x40000000) { ready with bmWrite := true, curTk := 0x60000007 }).diags =
      [⟨.bmModeMismatch, 0xC0000000⟩] ∧
    (ran (.bmctlStart 0x40000000) { ready with bmWrite := true, curTk := 0x60000007 }).curSector = 1 := by decide
/-- B7. -/
theorem test_wrBmStatusCtl_order :
    (ran (.wrBmStatusCtl 0x825A0000) releasing).cmdStatus = 0x47410000 ∧
    (ran (.wrBmStatusCtl 0x825A0000) releasing).bmBlock = false := by decide +kernel

/-! ## The sequencer (T3 to T5, Q1 to Q14) -/

/-- Q7: sector 84 of track 7 lies at 0x48290. -/
theorem test_step_reads : (ran .step (running false 84)).bmTrackOffset = 0x48290 ∧
    Memory.read (ran .step (running false 84)).dsBuf 0 = 0xF3 ∧
    (ran .step (running false 84)).curSector = 85 := by decide +kernel
/-- Q3: sector 0 is stored at 0x43670 at sector index 1. -/
theorem test_step_writes :
    (ran .step { running true 1 with dsBuf := [(0, 0xAB)] }).disk.map (fun d => Memory.read d.data 0x43670) =
      some 0xAB ∧
    (ran .step { running true 1 with dsBuf := [(0, 0xAB)] }).disk.map (fun d => Memory.read d.data 0x43671) =
      some 0 := by decide +kernel

/-! ## Geometry (2.5) -/

theorem test_lbaToPhys : [0, 1, 2, 3, 12, 0x123, 0x124, 0x35A, 0x35B, 0x10DB].map (lbaToPhys 0 noDefects) =
    [0x0000, 0x2000, 0x2001, 0x0001, 0x0006, 0x0091, 0x009E, 0x312F, 0x112F, 0x113C] := by decide +kernel
theorem test_defects : [0, 1, 2, 6, 8, 13].map (lbaToPhys 0 (noDefects.set 0 [0, 5])) =
    [0x0001, 0x2001, 0x2002, 0x2004, 0x0006, 0x2008] := by decide +kernel
theorem test_lbaToByte : lbaToByte 0 0x123 2 = 38080 ∧ lbaToByte 0 0x10DB 1 = 16320 ∧
    lbaToByte 0 0x10DB 2 = 0xFFFFFFFF := by decide +kernel
theorem test_flatSeek : flatSeek 0x60000007 1 3 = .found 0 0x48630 true ∧
    flatSeek 0x6000009E 0 0 = .found 1 0x5F15E0 false ∧ flatSeek 0x60001006 0 0 = .found 8 0x234F380 false := by
  decide
theorem test_lbaSeek : lbaSeek 0 (buildTable l0) 0x60000006 0 0 = .found 0 0x39C60 true ∧
    lbaSeek 0 (buildTable l0) 0x60000000 1 84 = .found 0 39208 true := by decide +kernel

/-! ## Port events (X1 to X14, Z1) -/

/-- X1, X2. -/
theorem test_cartAddr : (ran (.cartAddr 0x05000400) { ready with cmdStatus := 0x45000000 }).cmdStatus = 0x01000000 ∧
    (ran (.cartAddr 0x05000000) { ready with cmdStatus := 0x45000000 }).cmdStatus = 0x41000000 := by decide
/-- R291. -/
theorem test_dmaToHost : Memory.read (ran (.dmaToHost 0x050004FF 0x1000 2)
    { ready with dsBuf := [(0, 1), (255, 2)] }).hostMem 0x1001 = 1 := by decide
/-- R75: any host byte address. -/
theorem test_dmaToHost_high : Memory.read (ran (.dmaToHost 0x05000400 0xFFFFFFFF 2)
    { ready with dsBuf := [(0, 1), (1, 2)] }).hostMem 0x100000000 = 2 ∧
    Memory.read (ran (.dmaToHost 0x05000400 0xFFFFFFFF 2) { ready with dsBuf := [(0, 1), (1, 2)] }).hostMem 0 = 0 := by
  decide
/-- X6: the transfer wraps inside the buffer. -/
theorem test_dmaFromHost : Memory.read (ran (.dmaFromHost 0x050004FF 0x1000 2)
    { ready with hostMem := [(0x1000, 5), (0x1001, 6)] }).dsBuf 0 = 6 := by decide
/-- X14. -/
theorem test_attach : (ran (.attach l0) State.reset).cmdStatus = 0x00400000 ∧
    (ran (.attach l0) State.reset).lbaPhysTable.length = 4316 := by decide +kernel
theorem test_detach : (ran .detach ready).disk = none ∧ (ran .detach ready).cmdStatus = 0x01400000 := by decide
/-- R376: track 6 lies in the system area, track 157 does not. -/
theorem test_systemData : (ran .step { running true 1 with curTk := 0x60000006 }).sysDataWritten = true ∧
    (ran .step { running true 1 with curTk := 0x6000009D }).sysDataWritten = false ∧
    (ran .powerOn { ready with sysDataWritten := true }).sysDataWritten = false ∧
    (ran (.attach f7) { ready with sysDataWritten := true }).sysDataWritten = false := by decide +kernel
/-- Z1. -/
theorem test_powerOn : (ran .powerOn { running true 40 with irqLine := true }).cmdStatus = 0x01400000 ∧
    (ran .powerOn { running true 40 with irqLine := true }).irqLine = false := by decide

/-! ## What the hypotheses of the statements are met by -/

theorem witness_wellFormed : (Instr.attach l0).wellFormed = true := by decide
theorem witness_decodes : decode (.bmctl .resetRelease 0) = .ok (.bmctlResetRelease 0 0) := by decide
theorem witness_pending : (State.reset.place .step).pending = .step :: [] ∧ decode .step = .ok .step ∧
    State.reset.pending = [] := by decide
theorem witness_contract :
    (State.reset.place (.mmioRd 0x05000501)).pending = .mmioRd 0x05000501 :: [] ∧
    (0x05000501 : Word).getLsbD 0 = true ∧ (0x05000502 : Word).getLsbD 1 = true ∧
    (0x7FFFFFFF : Word) ≠ 0xFFFFFFFF ∧ Disk.wellFormed { l0 with type := 7 } = false := by decide
theorem witness_missingComponent :
    (State.reset.place (.bmctl .mechaRst 0)).pending = .bmctl .mechaRst 0 :: [] ∧
    ¬ holdsComponent 0 .mechaRst ∧ ¬ holdsComponent 0 .sectorOther ∧ ¬ holdsComponent 0x10000000 .resetRelease :=
  ⟨rfl, by unfold holdsComponent; decide, by unfold holdsComponent; decide, by unfold holdsComponent; decide⟩
theorem witness_refused : step (State.reset.place (.mmioRd 1)) = .refused .misalignedAddress := rfl
theorem witness_unnamedOpcodes : [0x06, 0x07, 0x15, 0x1A, 0x1C, 0xFF].all (fun op => op ∉ namedOps) = true := by
  decide
theorem witness_commandClauses : cmdOp 0x00000000 ∉ [param.opSeekRead, param.opSeekWrite] ∧
    cmdOp 0x01000000 ∉ [param.opClrDskChng, param.opClrReset] ∧ cmdOp 0x08000000 ≠ param.opClrReset ∧
    cmdOp 0x11000000 ∉ [param.opGetYearMonth, param.opGetDayHour, param.opGetMinSec] ∧
    cmdOp 0x11000000 ≠ param.opFeatureInq := by decide
/-- The three clauses of the status read, at sector indices 85 and 86. -/
theorem witness_statusRead :
    State.bmInt { running false 85 with cmdStatus := 0x05000000 } = true ∧ (running false 85).curSector.toNat < 86 ∧
    86 ≤ (running false 86).curSector.toNat ∧ State.running { running false 86 with bmStatusCtl := 0 } = false ∧
    (running false 86).running = true ∧ ready.bmInt = false := by decide
theorem witness_resetWords : (0x10000000 : Word).getLsbD param.bmcReset = true ∧
    (0x10000000 : Word).getLsbD param.bmcStart = false ∧ (0x10000000 : Word).getLsbD param.bmcMechaRst = false ∧
    (0x10000000 : Word).getLsbD param.bmcBlkTrans = false ∧
    (0 : Word).getLsbD param.bmcReset = false ∧ (0 : Word).getLsbD param.bmcStart = false ∧
    (0 : Word).getLsbD param.bmcMechaRst = false := by decide
theorem witness_stopped : ready.running = false := by decide
theorem witness_writeStart : (running true 0).running = true ∧ (running true 0).bmWrite = true ∧
    (running true 0).curSector = 0 := by decide
theorem witness_seekFinds_write1 : seekFinds (running true 1) f7 0 0 0x43670 true :=
  ⟨rfl, by decide, by decide⟩
theorem witness_seekFinds_write84 : seekFinds (running true 84) f7 83 0 (0x43670 + 83 * 232) true :=
  ⟨rfl, by decide, by decide⟩
theorem witness_write : (running true 1).running = true ∧ (running true 1).bmWrite = true ∧
    1 ≤ (running true 1).curSector.toNat ∧ (running true 84).curSector.toNat ≤ 84 ∧
    0x43670 + 83 * 232 + secSize16 0 ≤ f7.size ∧ Memory.wf f7.data = true := by decide
theorem witness_lastWrite : (running true 85).curSector = 85 ∧ (running true 85).continueBlock = false ∧
    State.continueBlock { running true 85 with bmStatusCtl := 0x81000000 } = true := by decide
theorem witness_seekFinds_write85 : seekFinds (running true 85) f7 84 0 0x48290 true :=
  ⟨rfl, by decide, by decide⟩
theorem not_track6 (w : Bool) (n : Word) : ¬ track6 (running w n) := fun h =>
  absurd h.1 (show ¬ (0x60000007#32 &&& 0x00001FFF = 6) by decide)
theorem witness_overrun : 85 < (running true 86).curSector.toNat ∧ 89 < (running false 90).curSector.toNat ∧
    (running false 90).running = true ∧ (running false 90).bmWrite = false ∧ ¬ track6 (running false 90) :=
  ⟨by decide, by decide, by decide, by decide, not_track6 _ _⟩
theorem witness_track6 : track6 { running false 95 with curTk := 0x60000006 } := ⟨by decide, rfl, f7, rfl, rfl⟩
theorem witness_seekFinds_read0 : seekFinds (running false 0) f7 0 0 0x43670 true := ⟨rfl, by decide, by decide⟩
theorem witness_seekFinds_read84 : seekFinds (running false 84) f7 84 0 0x48290 true := ⟨rfl, by decide, by decide⟩
theorem witness_read : (running false 0).running = true ∧ (running false 0).bmWrite = false ∧
    ¬ track6 (running false 0) ∧ (running false 84).curSector.toNat ≤ 84 ∧ 0x48290 + secSize16 0 ≤ f7.size ∧
    Memory.wf (running false 84).dsBuf = true :=
  ⟨by decide, by decide, not_track6 _ _, by decide, by decide, by decide⟩
theorem witness_correction : 85 ≤ (running false 85).curSector.toNat ∧ (running false 88).curSector.toNat ≤ 88 ∧
    ¬ track6 (running false 88) := ⟨by decide, by decide, not_track6 _ _⟩
theorem witness_gap : (running false 89).curSector = 89 ∧ (running false 89).continueBlock = false ∧
    State.continueBlock { running false 89 with bmStatusCtl := 0x81000000 } = true ∧ ¬ track6 (running false 89) :=
  ⟨by decide, by decide, by decide, not_track6 _ _⟩
/-- No disk; a track that the table does not hold; a flat image that ends one byte too early. -/
theorem witness_failed_noDisk : State.disk { running false 1 with disk := none } = none := rfl
theorem witness_failed_unresolved :
    resolve l0 [0x0000, 0x2000] 0x60000092 0 0 = .unresolved 0x0092 := by decide
theorem witness_failed_range : seekFinds { running false 0 with disk := some { f7 with size := 0x43670 + 231 } }
    { f7 with size := 0x43670 + 231 } 0 0 0x43670 true ∧ 0x43670 + 231 < 0x43670 + secSize16 0 :=
  ⟨⟨rfl, by decide, by decide⟩, by decide⟩
theorem witness_direct : (State.disk { running false 0 with disk := some { f7 with format := .direct } }) =
    some { f7 with format := .direct } ∧ (0 : Word).toNat + secSize16 0 ≤ f7.size := ⟨rfl, by decide⟩
theorem witness_direct_outside : Disk.size { f7 with format := .direct, size := 231 } < (0 : Word).toNat + secSize16 0 :=
  by decide
/-- The last LBA and the last track have a zone; the largest block and effective sector. -/
theorem witness_blockBytes : lbaToVZone 0 0 = some 0 ∧ lbaToVZone 0 4315 = some 15 := by decide
theorem witness_flatSeek : resolve f7 [] 0x60001FFF 1 84 =
    .found 15 (flatStartOffset 15 + (0xFFF - trackBase 7) * (secSize16 15 * 170) + secSize16 15 * 85
      + 84 * secSize16 15) false := by decide
/-- The coordinates of track 6: one that LBA 13 has, and one that no LBA has. -/
theorem witness_lbaSeek : l0.format = .lba ∧ l0.type < 7 ∧
    physToLba (buildTable l0) (BitVec.ofNat 16 (((0x60000006 : Word).toNat &&& 0x1FFF) ||| (1 <<< 13))) = 13 := by
  decide +kernel
theorem witness_lbaSeek_none :
    physToLba (buildTable l0) (BitVec.ofNat 16 (((0x60000006 : Word).toNat &&& 0x1FFF) ||| (2 <<< 13))) = 0xFFFF :=
  physToLba_of_not_mem (not_mem_buildTable _ (by decide))
theorem witness_zones : 4315 ≤ Config.maxLba ∧ Config.maxLba < 4316 ∧ 6 < Config.numDiskTypes := by decide
theorem witness_runs : 4315 + 1 ≤ Config.maxLba + 1 ∧ Config.maxLba + 1 < 4315 + 2 := by decide
theorem witness_reverse : [0x5#16, 0x6#16, 0x6#16][1]? = some 0x6#16 ∧ [0x5#16, 0x6#16, 0x6#16][0]? ≠ some 0x6#16 ∧
    0x7#16 ∉ [0x5#16, 0x6#16, 0x6#16] := by decide
theorem witness_defects : Disk.type { l0 with type := 6 } < Config.numDiskTypes ∧
    ∀ pz : Fin 16, ((noDefects.set 0 [0, 5, 5, 6, 7, 8, 9, 10, 11, 12, 13, 14]).get pz).length ≤ 12 ∧
      ((noDefects.set 0 [0, 5, 5, 6, 7, 8, 9, 10, 11, 12, 13, 14]).get pz).Pairwise (· ≤ ·) := by decide
/-- Both ends of the ranges of the three DMA selections and of `CARTADDR`. -/
theorem witness_ranges : dmaRange 0 0x05000000 = .c2 ∧ dmaRange 0 0x050003FF = .c2 ∧ dmaRange 0 0x05000400 = .ds ∧
    dmaRange 0 0x050004FF = .ds ∧ dmaRange 0 0x05000500 = .nothing ∧ dmaRange 0 0x06000000 = .nothing ∧
    dmaRange 1 0x06000000 = .rom ∧ dmaRange 1 0x06000001 = .nothing ∧ Memory.wf ready.hostMem = true := by decide
theorem witness_formats : f7.format ≠ .lba ∧ l0.format = .lba := by decide
theorem witness_invariant : State.reset.Inv := by constructor <;> decide
theorem witness_invariant_step : step State.reset = .next State.reset := rfl
/-- A state and an operation for each clause of the whole-machine statements. -/
theorem witness_raises : (running false 85).bmInt = false ∧ (ran .step (running false 85)).bmInt = true ∧
    ready.mechaInt = false ∧ (ran (.noop 0) ready).mechaInt = true := by decide
theorem witness_acknowledges :
    (ran (.noop 0) ready).mechaInt = true ∧ (ran (.bmctlMechaRst 0 0) (ran (.noop 0) ready)).mechaInt = false ∧
    State.bmInt { ready with cmdStatus := 0x45000000 } = true ∧
    (ran (.cartAddr 0x050004FF) { ready with cmdStatus := 0x45000000 }).bmInt = false := by decide
theorem witness_sticky : ready.rstState = true ∧ (ran (.clrReset 0) ready).rstState = false ∧
    State.micro { ready with bmStatusCtl := 0x02000000, bmResetHeld := true } = true ∧
    (ran (.bmctlResetRelease 0 0) { ready with bmStatusCtl := 0x02000000, bmResetHeld := true }).micro = false ∧
    State.bmErr { ready with cmdStatus := 0x08000000 } = true ∧
    State.diskChng { ready with cmdStatus := 0x00010000 } = true := by decide
theorem witness_writers : (ran (.seekWrite 0) ready).curTk ≠ ready.curTk ∧
    (ran .step (running false 84)).bmTrackOffset ≠ (running false 84).bmTrackOffset ∧
    (ran .detach ready).disk ≠ ready.disk ∧ (ran .step (running false 84)).dsBuf ≠ (running false 84).dsBuf ∧
    (ran (.dmaToHost 0x05000400 0 1) { ready with dsBuf := [(0, 1)] }).hostMem ≠ ready.hostMem ∧
    (ran (.wrMseq 3 1) ready).mseqRam ≠ ready.mseqRam := by decide +kernel
theorem witness_latchWriters : (ran (.bmctlSector5A 0 0) ready).bmBlock ≠ ready.bmBlock ∧
    (ran (.bmctlReset 0 0) ready).bmResetHeld ≠ ready.bmResetHeld ∧
    (ran (.attach l0) ready).lbaPhysTable ≠ ready.lbaPhysTable ∧ l0.format = .lba := by decide +kernel
/-- The answer of the clock is free, so one of two states that differ in the last sample changes. -/
theorem witness_clockWriters : (ran (.getMinSec 0) { ready with rtcLast := 0 }).rtcLast ≠ 0 ∨
    (ran (.getMinSec 0) { ready with rtcLast := 1 }).rtcLast ≠ 1 := by
  show Config.clockAnswer 0 ≠ 0 ∨ Config.clockAnswer 0 ≠ 1
  omega
/-- The two cases of power-on: an `LBA` image whose system data was overwritten, and any other attachment. -/
theorem witness_powerOn : State.disk { ready with disk := some l0, sysDataWritten := true } = some l0 ∧
    l0.format = .lba ∧ l0.wellFormed = true ∧ ready.sysDataWritten = false ∧
    (ready.disk.all fun d => d.format ≠ .lba) = true := by decide
theorem witness_byteCounts : Instr.step ≠ .rdHostSecbyte ∧ Instr.step ≠ .rdSecByte ∧ Instr.step ≠ .powerOn := by decide

end Sys2Proof.Tests
end

namespace Sys2Proof.Machine

/-! ## The BCD byte (R113) -/

/-- Two nibbles put side by side as `byte2bcd` does it do not overlap, and none of their bits leaves the byte. -/
theorem toNat_nibbles {hi lo : Nat} (hhi : hi < 16) (hlo : lo < 16) :
    ((BitVec.ofNat 8 hi <<< 4) ||| BitVec.ofNat 8 lo).toNat = 16 * hi + lo := by
  have hdisjoint : hi <<< 4 ||| lo = 16 * hi + lo := by
    rw [← Nat.shiftLeft_add_eq_or_of_lt hlo, Nat.shiftLeft_eq, Nat.mul_comm]
  have hshift : (BitVec.ofNat 8 hi <<< 4).toNat = hi <<< 4 := by
    rw [BitVec.toNat_shiftLeft, BitVec.toNat_ofNat, Nat.shiftLeft_eq, Nat.shiftLeft_eq]
    omega
  rw [BitVec.toNat_or, hshift, BitVec.toNat_ofNat, Nat.mod_eq_of_lt (by omega), hdisjoint]

/-- Settles O13: both digits of a number below 100 fit a nibble (R113). -/
theorem bcdByteHoldsTwoDigits : Obligations.BcdByteHoldsTwoDigits := by
  intro n
  have hm : (n % 100).toNat < 100 := by omega
  exact toNat_nibbles (hi := (n % 100).toNat / 10) (lo := (n % 100).toNat % 10) (by omega) (by omega)

end Sys2Proof.Machine

namespace Sys2Proof.Machine

/-! ## The plain register reads (R131, R133, R134, R137 to R139)

A plain read is `State.returnValue` of the register, whose field lemmas say that it leaves every other field alone. -/

section
variable (s : State)

@[simp] theorem exec_rdData : exec .rdData s = .next (s.returnValue s.data) := rfl
@[simp] theorem exec_rdCurTk : exec .rdCurTk s = .next (s.returnValue s.curTk) := rfl
@[simp] theorem exec_rdBmStatusCtl : exec .rdBmStatusCtl s = .next (s.returnValue s.bmStatusCtl) := rfl
@[simp] theorem exec_rdHostSecbyte : exec .rdHostSecbyte s = .next (s.returnValue s.hostSecbyte) := rfl
@[simp] theorem exec_rdSecByte : exec .rdSecByte s = .next (s.returnValue s.secByte) := rfl
@[simp] theorem exec_rdIdReg : exec .rdIdReg s = .next (s.returnValue s.idReg) := rfl

end

/-- Settles O16: each of the six reads is `State.returnValue` of its register, which writes `readValue` alone. -/
theorem plainReadsReturnTheRegister : Obligations.PlainReadsReturnTheRegister := fun s =>
  ⟨exec_rdData s, exec_rdCurTk s, exec_rdBmStatusCtl s, exec_rdHostSecbyte s, exec_rdSecByte s, exec_rdIdReg s⟩

end Sys2Proof.Machine

namespace Sys2Proof.Machine

open Sys2Proof.Spec

/-! ## Commands (R160, R161, R164 to R176, R180, R325)

What the commands share, said once: the opcode is the upper byte of the word, every command ends in `commandDone`, and
a command without an implemented effect adds one diagnostic before it. -/

section
variable (op : BitVec 8) (r : BitVec 24) (s : State)

/-- The opcode of a command word selects the command, the other 24 bits go along (R102, R103). -/
theorem decodeCommand_append : decodeCommand (op ++ r) = commandOf op r := by
  rw [← cmdWord_eq, decodeCommand, cmdOp_cmdWord, cmdRest_cmdWord]

/-- The end of a command (R160): `MECHA_INT` raised, so that the line is high. -/
theorem finishCommand_eq : finishCommand s = commandDone s := s.setIrq_eq .mecha

/-- All that a command without an implemented effect does (R161, R325). -/
theorem unimplementedCommand_eq :
    unimplementedCommand op r s = commandDone (logged .cmdUnimpl (op ++ r) s) := by
  rw [unimplementedCommand, finishCommand_eq, cmdWord_eq]
  rfl

/-- A command that only logs, from the two choices that name it: the decoder's, that its opcode selects it, and the
dispatch's, that its meaning is the shared unimplemented one under that same opcode. -/
theorem decodes_and_onlyLogs {op : BitVec 8} {command : BitVec 24 → Instr}
    (selected : ∀ r, commandOf op r = command r)
    (meaning : ∀ r s, exec (command r) s = .next (unimplementedCommand op r s)) :
    ∀ r s, decodeCommand (op ++ r) = command r ∧
      exec (command r) s = .next (commandDone (logged .cmdUnimpl (op ++ r) s)) := fun r s =>
  ⟨(decodeCommand_append op r).trans (selected r), by rw [meaning, unimplementedCommand_eq]⟩

@[simp] theorem exec_clrReset : exec (.clrReset r) s =
    .next (commandDone ((s.putStatus param.stRstState false).putStatus param.stDiskChng false)) :=
  congrArg _ (finishCommand_eq _)

@[simp] theorem exec_clrDskChng : exec (.clrDskChng r) s =
    .next (commandDone (s.putStatus param.stDiskChng false)) :=
  congrArg _ (finishCommand_eq _)

@[simp] theorem exec_setDiskType : exec (.setDiskType r) s = .next (commandDone (s.diag .setDiskType s.data)) :=
  congrArg _ (finishCommand_eq _)

@[simp] theorem exec_featureInq : exec (.featureInq r) s = .next (commandDone { s with data := 0 }) :=
  congrArg _ (finishCommand_eq _)

end

/-- Settles O7, one entry of the list after the other: each opcode selects its command (no earlier test of the decoder
takes it), and each arm is the shared unimplemented meaning. -/
theorem unimplementedCommandsOnlyLog : Obligations.UnimplementedCommandsOnlyLog := by
  unfold Obligations.UnimplementedCommandsOnlyLog
  simp only [List.forall_mem_cons]
  exact
    ⟨decodes_and_onlyLogs (command := .noop) (fun _ => rfl) (fun _ _ => rfl),
     decodes_and_onlyLogs (command := .recalibrate) (fun _ => rfl) (fun _ _ => rfl),
     decodes_and_onlyLogs (command := .sleep) (fun _ => rfl) (fun _ _ => rfl),
     decodes_and_onlyLogs (command := .start) (fun _ => rfl) (fun _ _ => rfl),
     decodes_and_onlyLogs (command := .readVersion) (fun _ => rfl) (fun _ _ => rfl),
     decodes_and_onlyLogs (command := .requestStatus) (fun _ => rfl) (fun _ _ => rfl),
     decodes_and_onlyLogs (command := .standby) (fun _ => rfl) (fun _ _ => rfl),
     decodes_and_onlyLogs (command := .idxLockRetry) (fun _ => rfl) (fun _ _ => rfl),
     decodes_and_onlyLogs (command := .setYearMonth) (fun _ => rfl) (fun _ _ => rfl),
     decodes_and_onlyLogs (command := .setDayHour) (fun _ => rfl) (fun _ _ => rfl),
     decodes_and_onlyLogs (command := .setMinSec) (fun _ => rfl) (fun _ _ => rfl),
     List.forall_mem_nil _⟩

/-- Settles O10: the cleared bits go through `State.putStatus`, which writes `CMD_STATUS` alone. -/
theorem clearCommandsClearTheirBits : Obligations.ClearCommandsClearTheirBits := fun r s =>
  ⟨exec_clrReset r s, exec_clrDskChng r s⟩

/-- Settles O11: the one diagnostic of set-disk-type, the one register of feature-inquiry. -/
theorem setDiskTypeAndFeatureInquiry : Obligations.SetDiskTypeAndFeatureInquiry := fun r s =>
  ⟨exec_setDiskType r s, exec_featureInq r s⟩

end Sys2Proof.Machine

namespace Sys2Proof.Machine

/-! ## The encoder's words under the decoder (R100 to R104, R108, R118, R209)

One lemma per format: what the decoder answers on the words the encoder builds. -/

/-! The format `CMD`: an opcode and the 24 bits beside it. -/

section
variable (op : BitVec 8) (r : BitVec 24)

@[simp] theorem decodeCommand_cmdWord : decodeCommand (cmdWord op r) = commandOf op r := by
  rw [decodeCommand, cmdOp_cmdWord, cmdRest_cmdWord]

/-- An opcode that no row of R103 names falls through every test of the decoder. -/
theorem commandOf_of_not_named (h : op ∉ namedOps) : commandOf op r = .cmdOther op r := by
  simp only [namedOps, List.mem_cons, List.not_mem_nil, or_false, not_or] at h
  simp only [commandOf, h, if_false]

end

/-! The formats `MMIO_RD` and `MMIO_WR`: the three kinds of address. -/

section
variable (v : Word)

@[simp] theorem decodeRead_regAddress (reg : Reg) : decodeRead (regAddress reg) = .ok (readOf reg) := by
  obtain ⟨haligned, htarget⟩ := decodeAddress_regAddress reg
  simp [decodeRead, haligned, htarget]

@[simp] theorem decodeRead_mseqAddress (k : Fin 16) : decodeRead (mseqAddress k) = .ok (.rdMseq k) := by
  obtain ⟨haligned, htarget⟩ := decodeAddress_mseqAddress k
  simp [decodeRead, haligned, htarget]

@[simp] theorem decodeWrite_regAddress (reg : Reg) :
    decodeWrite (regAddress reg) v fullMask = .ok (writeOf v reg) := by
  obtain ⟨haligned, htarget⟩ := decodeAddress_regAddress reg
  simp [decodeWrite, fullMask, haligned, htarget]

@[simp] theorem decodeWrite_mseqAddress (k : Fin 16) :
    decodeWrite (mseqAddress k) v fullMask = .ok (.wrMseq k v) := by
  obtain ⟨haligned, htarget⟩ := decodeAddress_mseqAddress k
  simp [decodeWrite, fullMask, haligned, htarget]

/-- An address of the fallback rows is aligned and has no target of its own. -/
theorem undefAddress_iff (a : Word) : undefAddress a = true ↔
    aligned a = true ∧ (decodeAddress a = .undefinedIndex ∨ decodeAddress a = .outside) := by
  simp only [undefAddress, Bool.and_eq_true, Bool.or_eq_true, beq_iff_eq]

theorem decodeRead_undefAddress {a : Word} (h : undefAddress a = true) : decodeRead a = .ok (.rdUndef a) := by
  obtain ⟨haligned, htarget | htarget⟩ := (undefAddress_iff a).mp h <;>
    simp [decodeRead, haligned, htarget]

theorem decodeWrite_undefAddress {a : Word} (h : undefAddress a = true) :
    decodeWrite a v fullMask = .ok (.wrUndef a v) := by
  obtain ⟨haligned, htarget | htarget⟩ := (undefAddress_iff a).mp h <;>
    simp [decodeWrite, fullMask, haligned, htarget]

end

/-! The form `BMCTL`: the component's own bits are found, and the bits around them are cut where the encoder
joined them. -/

section
variable (hi : BitVec 8) (lo : BitVec 16)

@[simp] theorem decodeBmctl_sector00 :
    decodeBmctl .sector00 (controlWordSector Config.startByteBlock0 (hi ++ lo)) = .ok (.bmctlSector00 hi lo) := by
  simp only [decodeBmctl, bmcSector_controlWordSector, bmcSectorRest_controlWordSector, if_true,
    BitVec.extractLsb'_append_eq_left, BitVec.extractLsb'_append_eq_right]

@[simp] theorem decodeBmctl_sector5A :
    decodeBmctl .sector5A (controlWordSector Config.startByteBlock1 (hi ++ lo)) = .ok (.bmctlSector5A hi lo) := by
  simp only [decodeBmctl, bmcSector_controlWordSector, bmcSectorRest_controlWordSector, if_true,
    BitVec.extractLsb'_append_eq_left, BitVec.extractLsb'_append_eq_right]

theorem decodeBmctl_sectorOther {b : BitVec 8} (h : b ≠ Config.startByteBlock0 ∧ b ≠ Config.startByteBlock1) :
    decodeBmctl .sectorOther (controlWordSector b (hi ++ lo)) = .ok (.bmctlSectorOther hi b lo) := by
  simp only [decodeBmctl, bmcSector_controlWordSector, bmcSectorRest_controlWordSector, if_pos h,
    BitVec.extractLsb'_append_eq_left, BitVec.extractLsb'_append_eq_right]

end

@[simp] theorem decodeBmctl_mechaRst (hi : BitVec 7) (lo : BitVec 24) :
    decodeBmctl .mechaRst (controlWordBit param.bmcMechaRst true (hi ++ lo)) = .ok (.bmctlMechaRst hi lo) := by
  have hbit : param.bmcMechaRst ≤ 31 := by decide
  simp only [decodeBmctl, controlWordBit_bit _ _ _ hbit, bmcBitRest_controlWordBit _ _ _ hbit, if_true,
    BitVec.extractLsb'_append_eq_left, BitVec.extractLsb'_append_eq_right]

@[simp] theorem decodeBmctl_blkTrans (hi : BitVec 6) (lo : BitVec 25) :
    decodeBmctl .blkTrans (controlWordBit param.bmcBlkTrans true (hi ++ lo)) = .ok (.bmctlBlkTrans hi lo) := by
  have hbit : param.bmcBlkTrans ≤ 31 := by decide
  simp only [decodeBmctl, controlWordBit_bit _ _ _ hbit, bmcBitRest_controlWordBit _ _ _ hbit, if_true,
    BitVec.extractLsb'_append_eq_left, BitVec.extractLsb'_append_eq_right]

section
variable (hi : BitVec 3) (lo : BitVec 28)

@[simp] theorem decodeBmctl_reset :
    decodeBmctl .reset (controlWordBit param.bmcReset true (hi ++ lo)) = .ok (.bmctlReset hi lo) := by
  have hbit : param.bmcReset ≤ 31 := by decide
  simp only [decodeBmctl, controlWordBit_bit _ _ _ hbit, bmcBitRest_controlWordBit _ _ _ hbit, if_true,
    BitVec.extractLsb'_append_eq_left, BitVec.extractLsb'_append_eq_right]

@[simp] theorem decodeBmctl_resetRelease :
    decodeBmctl .resetRelease (controlWordBit param.bmcReset false (hi ++ lo)) = .ok (.bmctlResetRelease hi lo) := by
  have hbit : param.bmcReset ≤ 31 := by decide
  simp only [decodeBmctl, controlWordBit_bit _ _ _ hbit, bmcBitRest_controlWordBit _ _ _ hbit, Bool.false_eq_true,
    if_false, BitVec.extractLsb'_append_eq_left, BitVec.extractLsb'_append_eq_right]

end

@[simp] theorem decodeBmctl_start (lo : BitVec 31) :
    decodeBmctl .start (controlWordBit param.bmcStart true lo) = .ok (.bmctlStart lo) := by
  have hbit : param.bmcStart ≤ 31 := by decide
  simp only [decodeBmctl, controlWordBit_bit _ _ _ hbit, bmcBitRest_controlWordBit _ _ _ hbit, if_true]

/-- Settles O1, format by format: a command word under its opcode, a register under its address, a control word under
its component; the three fallback rows and the attachment take what well-formedness says of their operands. -/
theorem decodeEncodeRoundTrip : Obligations.DecodeEncodeRoundTrip := by
  intro i hwf
  cases i with
  | noop r | seekRead r | seekWrite r | recalibrate r | sleep r | start r | clrDskChng r | clrReset r
  | readVersion r | setDiskType r | requestStatus r | standby r | idxLockRetry r | setYearMonth r | setDayHour r
  | setMinSec r | getYearMonth r | getDayHour r | getMinSec r | featureInq r =>
    exact congrArg Except.ok (decodeCommand_cmdWord _ r)
  | cmdOther op r =>
    have hunnamed : op ∉ namedOps := of_decide_eq_true hwf
    exact congrArg Except.ok ((decodeCommand_cmdWord op r).trans (commandOf_of_not_named op r hunnamed))
  | rdData | rdCmdStatus | rdCurTk | rdBmStatusCtl | rdCurSector | rdHardReset | rdHostSecbyte | rdSecByte
  | rdIdReg => exact decodeRead_regAddress _
  | wrData v | wrCmdStatus v | wrCurTk v | wrBmStatusCtl v | wrCurSector v | wrHardReset v | wrHostSecbyte v
  | wrSecByte v | wrIdReg v => exact decodeWrite_regAddress v _
  | bmctlSector00 hi lo => exact decodeBmctl_sector00 hi lo
  | bmctlSector5A hi lo => exact decodeBmctl_sector5A hi lo
  | bmctlSectorOther hi b lo => exact decodeBmctl_sectorOther hi lo (of_decide_eq_true hwf)
  | bmctlMechaRst hi lo => exact decodeBmctl_mechaRst hi lo
  | bmctlBlkTrans hi lo => exact decodeBmctl_blkTrans hi lo
  | bmctlReset hi lo => exact decodeBmctl_reset hi lo
  | bmctlResetRelease hi lo => exact decodeBmctl_resetRelease hi lo
  | bmctlStart lo => exact decodeBmctl_start lo
  | rdMseq k => exact decodeRead_mseqAddress k
  | wrMseq k v => exact decodeWrite_mseqAddress v k
  | rdUndef a => exact decodeRead_undefAddress hwf
  | wrUndef a v => exact decodeWrite_undefAddress v hwf
  | attach image => exact if_pos hwf
  | step | cartAddr _ | dmaToHost _ _ _ | dmaFromHost _ _ _ | detach | powerOn => rfl

end Sys2Proof.Machine

namespace Sys2Proof.Machine

open Sys2Proof.Spec

/-! ## One step of the sequencer (R220 to R223, R232)

What every step shares, said once: a stopped sequencer keeps its state, a running one ends the branch of its direction
in `stepDone`. A statement about a branch needs beside this only what the branch itself does. -/

section
variable (s : State)

@[simp] theorem exec_step : exec .step s = .next (bmStep s) := rfl

/-- The end of a running step (R232): `BM_INT` raised, so that the line is high. -/
theorem setIrq_bm_eq_stepDone : s.setIrq .bm = stepDone s := s.setIrq_eq .bm

@[simp] theorem stepDone_bmInt : (stepDone s).bmInt = true := getLsbD_putBit_self _ _ _ (by decide)

@[simp] theorem stepDone_irqLine : (stepDone s).irqLine = true := rfl

variable {s}

/-- The `STEP` event of a running sequencer (R220, R222, R232). -/
theorem exec_step_running (h : s.running = true) :
    exec .step s = .next (stepDone (if s.bmWrite then writeBranch s else readBranch s)) := by
  rw [exec_step, bmStep_running s h, setIrq_bm_eq_stepDone]

/-- The `STEP` event in the write direction. -/
theorem exec_step_write (h : s.running = true) (hw : s.bmWrite = true) :
    exec .step s = .next (stepDone (writeBranch s)) := by
  rw [exec_step_running h, if_pos hw]

/-- The priming branch (R223): no seek and no sector primitive, only the index and `DATA_RQ`. -/
theorem writeBranch_sectorZero (h : s.curSector = 0) :
    writeBranch s = { s with curSector := 1 }.putStatus param.stDataRq true := by
  have hzero : s.curSector.toNat = 0 := by rw [h]; rfl
  rw [writeBranch, if_pos hzero]

end

/-- Settles O28: whichever branch the step takes, it ends in `stepDone`. -/
theorem runningStepRaisesBmInt : Obligations.RunningStepRaisesBmInt := fun _ h =>
  ⟨_, exec_step_running h, stepDone_bmInt _, stepDone_irqLine _⟩

/-- Settles O27: `BMStep()` returns before it looks at the direction. -/
theorem stoppedSequencerDoesNotStep : Obligations.StoppedSequencerDoesNotStep := fun s h => by
  rw [exec_step, bmStep_not_running s h]

/-- Settles O29: sector 0 selects the priming branch, whose `State.putStatus` writes `CMD_STATUS` alone. -/
theorem writeStepPrimesAtSectorZero : Obligations.WriteStepPrimesAtSectorZero := fun s h hw hzero => by
  rw [exec_step_write h hw, writeBranch_sectorZero hzero, State.putStatus]

end Sys2Proof.Machine

namespace Sys2Proof.Machine

/-! ## The reverse lookup (R272)

The lookup that succeeds, beside `physToLba_of_not_mem`, the one that fails. -/

/-- An index that holds the coordinate, with none before it that does, is the one the linear search stops at. -/
theorem physToLba_of_first {table : List (BitVec 16)} {coord : BitVec 16} {l : Nat}
    (hentry : table[l]? = some coord) (hfirst : ∀ j, j < l → table[j]? ≠ some coord) :
    physToLba table coord = l := by
  obtain ⟨hl, hcoord⟩ := List.getElem?_eq_some_iff.mp hentry
  have hfound : table.findIdx? (· == coord) = some l := by
    refine List.findIdx?_eq_some_iff_getElem.mpr ⟨hl, beq_iff_eq.mpr hcoord, fun j hj hbeq => ?_⟩
    exact hfirst j hj (List.getElem?_eq_some_iff.mpr ⟨hj.trans hl, beq_iff_eq.mp hbeq⟩)
  rw [physToLba, hfound, Option.getD_some]

/-- Settles O46: the search succeeds at the first entry and fails where there is none. The bound on the table's
length, which keeps the sentinel apart from every index, is needed by neither half. -/
theorem reverseLookupFindsTheFirstEntry : Obligations.ReverseLookupFindsTheFirstEntry := fun _ _ _ =>
  ⟨fun _ _ hentry hfirst => physToLba_of_first hentry hfirst, physToLba_of_not_mem⟩

end Sys2Proof.Machine

namespace Sys2Proof.Machine

/-! ## The decoder's answers under the encoder (R72, R100 to R104, R118)

The converse of `decodeEncodeRoundTrip`, format by format: the decoder drops no bit of an operation. -/

/-! The addresses: an aligned address is the one of the target it decodes to. -/

/-- The two low bits that `aligned` reads are the remainder by the word size (R74). -/
theorem aligned_iff (a : Word) : aligned a = true ↔ a.toNat % 4 = 0 := by
  rw [aligned, beq_iff_eq, ← BitVec.toNat_inj, BitVec.extractLsb'_toNat]
  simp

/-- The register that a byte offset selects has that offset (R71). -/
theorem regOffset_of_regAt {offset : Nat} {r : Reg} (h : regAt offset = some r) : param.regOffset r = offset :=
  beq_iff_eq.mp (List.find?_some h :)

theorem eq_regAddress_of_decodeAddress {a : Word} {r : Reg} (haligned : aligned a = true)
    (h : decodeAddress a = .reg r) : a = regAddress r := by
  have hmod := (aligned_iff a).mp haligned
  have hbase : param.mmioBase % 4 = 0 := rfl
  unfold decodeAddress at h
  split at h
  · next hwindow =>
    split at h
    · next hreg =>
      cases h
      have hoffset := regOffset_of_regAt hreg
      rw [regAddress, ← BitVec.toNat_inj, BitVec.toNat_ofNat]
      omega
    · cases h
  · split at h <;> cases h

theorem eq_mseqAddress_of_decodeAddress {a : Word} {k : Fin 16} (haligned : aligned a = true)
    (h : decodeAddress a = .mseq k) : a = mseqAddress k := by
  have hmod := (aligned_iff a).mp haligned
  have hbase : param.mseqBase % 4 = 0 := rfl
  have hsize : Config.mseqRamSize = 64 := rfl
  unfold decodeAddress at h
  split at h
  · split at h <;> cases h
  · split at h
    · next hram =>
      cases h
      rw [mseqAddress, ← BitVec.toNat_inj, BitVec.toNat_ofNat, Fin.val_ofNat]
      omega
    · cases h

theorem encode_of_decodeRead {a : Word} {i : Instr} (h : decodeRead a = .ok i) : encode i = .mmioRd a := by
  unfold decodeRead at h
  split at h
  · next haligned =>
    cases h
    split
    · next r hr =>
      rw [eq_regAddress_of_decodeAddress haligned hr]
      cases r <;> rfl
    · next k hk => rw [eq_mseqAddress_of_decodeAddress haligned hk]; rfl
    · rfl
    · rfl
  · cases h

theorem encode_of_decodeWrite {a v mask : Word} {i : Instr} (h : decodeWrite a v mask = .ok i) :
    encode i = .mmioWr a v mask := by
  unfold decodeWrite at h
  split at h
  · cases h
  · next hmask =>
    have hfull : mask = fullMask := not_not.mp hmask
    split at h
    · next haligned =>
      cases h
      subst hfull
      split
      · next r hr =>
        rw [eq_regAddress_of_decodeAddress haligned hr]
        cases r <;> rfl
      · next k hk => rw [eq_mseqAddress_of_decodeAddress haligned hk]; rfl
      · rfl
      · rfl
    · cases h

/-! The command words. -/

/-- Every command is encoded as its opcode with the 24 bits beside it (R102, R103). -/
theorem encode_commandOf (op : BitVec 8) (r : BitVec 24) : encode (commandOf op r) = .cmd (cmdWord op r) := by
  by_cases h : op ∈ namedOps
  · revert op
    simp only [namedOps, List.forall_mem_cons]
    exact ⟨rfl, rfl, rfl, rfl, rfl, rfl, rfl, rfl, rfl, rfl, rfl, rfl, rfl, rfl, rfl, rfl, rfl, rfl, rfl, rfl,
      List.forall_mem_nil _⟩
  · rw [commandOf_of_not_named op r h]
    rfl

/-! The control words: a component's bits, and the bits cut above and below it. -/

/-- Cutting a string of bits and joining the two pieces gives it back. -/
theorem extractLsb'_append_extractLsb'_self {hi lo : Nat} (x : BitVec (hi + lo)) :
    x.extractLsb' lo hi ++ x.extractLsb' 0 lo = x := by
  apply BitVec.eq_of_getLsbD_eq
  intro k hk
  rw [BitVec.getLsbD_append, BitVec.getLsbD_extractLsb', BitVec.getLsbD_extractLsb']
  split
  · next h => simp [h]
  · next h => simp [show k - lo < hi by omega, show lo + (k - lo) = k by omega]

theorem encode_of_decodeBmctl {p : BmPart} {w : Word} {i : Instr} (h : decodeBmctl p w = .ok i) :
    encode i = .bmctl p w := by
  have hsector : ∀ b, bmcSector w = b → controlWordSector b
      ((bmcSectorRest w).extractLsb' 16 8 ++ (bmcSectorRest w).extractLsb' 0 16) = w := by
    rintro b rfl
    exact (congrArg _ (extractLsb'_append_extractLsb'_self (hi := 8) (lo := 16) _)).trans
      (controlWordSector_bmcSector w)
  have hbit : ∀ bit b, bit ≤ 31 → w.getLsbD bit = b → controlWordBit bit b (bmcBitRest bit w) = w := by
    rintro bit b hle rfl
    exact controlWordBit_getLsbD bit w hle
  cases p <;> simp only [decodeBmctl] at h <;> split at h <;> cases h
  case sector00 hb => exact congrArg _ (hsector _ hb)
  case sector5A hb => exact congrArg _ (hsector _ hb)
  case sectorOther => exact congrArg _ (hsector _ rfl)
  case mechaRst hb =>
    exact congrArg _ ((congrArg _ (extractLsb'_append_extractLsb'_self (hi := 7) _)).trans (hbit _ _ (by decide) hb))
  case blkTrans hb =>
    exact congrArg _ ((congrArg _ (extractLsb'_append_extractLsb'_self (hi := 6) _)).trans (hbit _ _ (by decide) hb))
  case reset hb =>
    exact congrArg _ ((congrArg _ (extractLsb'_append_extractLsb'_self (hi := 3) _)).trans (hbit _ _ (by decide) hb))
  case resetRelease hb =>
    exact congrArg _ ((congrArg _ (extractLsb'_append_extractLsb'_self (hi := 3) _)).trans
      (hbit _ _ (by decide) (Bool.eq_false_iff.mpr hb)))
  case start hb => exact congrArg _ (hbit _ _ (by decide) hb)

/-- Settles O2, format by format. -/
theorem encodeDecodeRoundTrip : Obligations.EncodeDecodeRoundTrip := by
  intro op i h
  cases op with
  | mmioRd a => exact encode_of_decodeRead h
  | mmioWr a v mask => exact encode_of_decodeWrite h
  | cmd w =>
    cases h
    rw [decodeCommand, encode_commandOf, cmdWord_cmdOp_cmdRest]
  | bmctl p w => exact encode_of_decodeBmctl h
  | attach image =>
    simp only [decode] at h
    split at h <;> cases h
    rfl
  | step | cartAddr _ | dmaToHost _ _ _ | dmaFromHost _ _ _ | detach | powerOn => cases h; rfl

end Sys2Proof.Machine

namespace Sys2Proof.Machine

open Sys2Proof.Spec

/-! ## What a command does before `SetIrq(MECHA)` (R160 to R181) -/

section
variable (op : BitVec 8) (r : BitVec 24) (v : Word) (s : State)

/-- All that one command can do before its interrupt, by its word: eight opcodes have an effect of their own, any
command may be one that only logs (R181, R325). -/
inductive CommandEffect : State → Prop
  | logs : CommandEffect (logged .cmdUnimpl v s)
  | seek (h : cmdOp v ∈ [param.opSeekRead, param.opSeekWrite]) : CommandEffect (latchSeek v s)
  | clrDskChng (h : cmdOp v = param.opClrDskChng) : CommandEffect (s.putStatus param.stDiskChng false)
  | clrReset (h : cmdOp v = param.opClrReset) :
    CommandEffect ((s.putStatus param.stRstState false).putStatus param.stDiskChng false)
  | setDiskType : CommandEffect (s.diag .setDiskType s.data)
  | readRtc (h : cmdOp v ∈ [param.opGetYearMonth, param.opGetDayHour, param.opGetMinSec]) (w : Word) :
    CommandEffect { s.rtcSample with data := w }
  | featureInq (h : cmdOp v = param.opFeatureInq) : CommandEffect { s with data := 0 }

@[simp] theorem exec_cmdOther :
    exec (.cmdOther op r) s = .next (commandDone (logged .cmdUnimpl (op ++ r) s)) :=
  congrArg Host.Outcome.next (unimplementedCommand_eq op r s)

@[simp] theorem exec_seekRead :
    exec (.seekRead r) s = .next (commandDone (latchSeek (param.opSeekRead ++ r) s)) := by
  rw [← cmdWord_eq]
  exact congrArg Host.Outcome.next (finishCommand_eq _)

@[simp] theorem exec_seekWrite :
    exec (.seekWrite r) s = .next (commandDone (latchSeek (param.opSeekWrite ++ r) s)) := by
  rw [← cmdWord_eq]
  exact congrArg Host.Outcome.next (finishCommand_eq _)

/-- A read-RTC command is one sample and a word in `DATA` (R177 to R179). -/
theorem readRtc_eq (pair : CalendarFields → Word) :
    readRtc pair s = commandDone { s.rtcSample with data := pair s.rtcSample.calendar } :=
  finishCommand_eq _

/-- The command write performs the meaning of the command that its opcode selects (R144, R160). -/
theorem exec_commandOf : exec (commandOf op r) s = exec (.wrCmdStatus (cmdWord op r)) s := by
  change exec (commandOf op r) s = execWrCmdStatus (cmdWord op r) s
  unfold execWrCmdStatus
  simp only [cmdOp_cmdWord, cmdRest_cmdWord]
  by_cases h : op ∈ namedOps
  · revert op
    simp only [namedOps, List.forall_mem_cons]
    exact ⟨rfl, rfl, rfl, rfl, rfl, rfl, rfl, rfl, rfl, rfl, rfl, rfl, rfl, rfl, rfl, rfl, rfl, rfl, rfl, rfl,
      List.forall_mem_nil _⟩
  · rw [commandOf_of_not_named op r h]
    simp only [namedOps, List.mem_cons, List.not_mem_nil, or_false, not_or] at h
    simp only [h, if_false]
    rfl

/-- The command write (R160): an effect of its word's opcode, then `SetIrq(MECHA)`. -/
theorem exec_wrCmdStatus : ∃ t, CommandEffect v s t ∧ exec (.wrCmdStatus v) s = .next (commandDone t) := by
  change ∃ t, _ ∧ execWrCmdStatus v s = _
  have hword : cmdOp v ++ cmdRest v = v := by rw [← cmdWord_eq, cmdWord_cmdOp_cmdRest]
  unfold execWrCmdStatus
  dsimp only
  split_ifs with hsr hsw hdc hcr hdt hym hdh hms hfi
  · exact ⟨_, .seek (by simp [hsr]), by rw [execSeekRead, finishCommand_eq, ← hsr, cmdWord_cmdOp_cmdRest]⟩
  · exact ⟨_, .seek (by simp [hsw]), by rw [execSeekWrite, finishCommand_eq, ← hsw, cmdWord_cmdOp_cmdRest]⟩
  · exact ⟨_, .clrDskChng hdc, exec_clrDskChng (cmdRest v) s⟩
  · exact ⟨_, .clrReset hcr, exec_clrReset (cmdRest v) s⟩
  · exact ⟨_, .setDiskType, exec_setDiskType (cmdRest v) s⟩
  · exact ⟨_, .readRtc (by simp [hym]) _, congrArg Host.Outcome.next (readRtc_eq s _)⟩
  · exact ⟨_, .readRtc (by simp [hdh]) _, congrArg Host.Outcome.next (readRtc_eq s _)⟩
  · exact ⟨_, .readRtc (by simp [hms]) _, congrArg Host.Outcome.next (readRtc_eq s _)⟩
  · exact ⟨_, .featureInq hfi, exec_featureInq (cmdRest v) s⟩
  · exact ⟨_, .logs, (exec_cmdOther _ _ s).trans (by rw [hword])⟩

/-- Every operation that writes a command word (R103, R160). -/
theorem exec_command {i : Instr} (h : commandWordOf i = some v) :
    ∃ t, CommandEffect v s t ∧ exec i s = .next (commandDone t) := by
  have row : ∀ {op r i}, commandOf op r = i → ∃ t, CommandEffect (op ++ r) s t ∧ exec i s = .next (commandDone t) := by
    rintro op r i rfl
    rw [exec_commandOf, cmdWord_eq]
    exact exec_wrCmdStatus (op ++ r) s
  cases i with
  | wrCmdStatus w => cases h; exact exec_wrCmdStatus _ s
  | cmdOther op r => cases h; exact ⟨_, .logs, exec_cmdOther op r s⟩
  | noop r | seekRead r | seekWrite r | recalibrate r | sleep r | start r | clrDskChng r | clrReset r
  | readVersion r | setDiskType r | requestStatus r | standby r | idxLockRetry r | setYearMonth r | setDayHour r
  | setMinSec r | getYearMonth r | getDayHour r | getMinSec r | featureInq r => cases h; exact row rfl
  | _ => cases h

end

/-! What the effects leave alone. -/

section
variable {v : Word} {s t : State}

/-- The fields that commands write. -/
theorem CommandEffect.frame (h : CommandEffect v s t) : t = { s with
    data := t.data, cmdStatus := t.cmdStatus, curTk := t.curTk, bmWrite := t.bmWrite
    rtcNow := t.rtcNow, rtcLast := t.rtcLast, oracle := t.oracle, diags := t.diags } := by
  cases h <;> rfl

/-- The fields that commands write, the interrupt at their end included. -/
theorem CommandEffect.done_frame (h : CommandEffect v s t) : commandDone t = { s with
    data := t.data, cmdStatus := (commandDone t).cmdStatus, curTk := t.curTk, bmWrite := t.bmWrite
    rtcNow := t.rtcNow, rtcLast := t.rtcLast, oracle := t.oracle, diags := t.diags
    irqLine := true, lineCalls := (commandDone t).lineCalls } := by
  cases h <;> rfl

/-- The two status bits that the two clears write. -/
theorem CommandEffect.status_bit (h : CommandEffect v s t) {n : Nat} (hdisk : n ≠ param.stDiskChng)
    (hreset : n ≠ param.stRstState) : t.cmdStatus.getLsbD n = s.cmdStatus.getLsbD n := by
  cases h with
  | clrDskChng => exact getLsbD_putBit_ne _ _ _ _ (by decide) hdisk
  | clrReset =>
    exact (getLsbD_putBit_ne _ _ _ _ (by decide) hdisk).trans (getLsbD_putBit_ne _ _ _ _ (by decide) hreset)
  | _ => rfl

theorem CommandEffect.latches (h : CommandEffect v s t) (hop : cmdOp v ∉ [param.opSeekRead, param.opSeekWrite]) :
    t.curTk = s.curTk ∧ t.bmWrite = s.bmWrite := by
  cases h with
  | seek hseek => exact absurd hseek hop
  | _ => exact ⟨rfl, rfl⟩

/-- A clear leaves `DISK_CHNG` clear, any other command leaves it alone. -/
theorem CommandEffect.diskChng (h : CommandEffect v s t) :
    t.diskChng = s.diskChng ∨ (t.diskChng = false ∧ cmdOp v ∈ [param.opClrDskChng, param.opClrReset]) := by
  cases h with
  | clrDskChng hop => exact .inr ⟨getLsbD_putBit_self _ _ _ (by decide), by simp [hop]⟩
  | clrReset hop => exact .inr ⟨getLsbD_putBit_self _ _ _ (by decide), by simp [hop]⟩
  | _ => exact .inl rfl

theorem CommandEffect.rstState (h : CommandEffect v s t) (hop : cmdOp v ≠ param.opClrReset) :
    t.rstState = s.rstState := by
  cases h with
  | clrDskChng => exact getLsbD_putBit_ne _ _ _ _ (by decide) (by decide)
  | clrReset hclr => exact absurd hclr hop
  | _ => rfl

theorem CommandEffect.clock (h : CommandEffect v s t)
    (hop : cmdOp v ∉ [param.opGetYearMonth, param.opGetDayHour, param.opGetMinSec]) :
    t.rtcNow = s.rtcNow ∧ t.rtcLast = s.rtcLast ∧ (cmdOp v ≠ param.opFeatureInq → t.data = s.data) := by
  cases h with
  | readRtc hread => exact absurd hread hop
  | featureInq hfeature => exact ⟨rfl, rfl, fun hne => absurd hfeature hne⟩
  | _ => exact ⟨rfl, rfl, fun _ => rfl⟩

variable (s)

@[simp] theorem commandDone_mechaInt : (commandDone s).mechaInt = true := getLsbD_putBit_self _ _ _ (by decide)

/-- The end of a command writes no status bit but `MECHA_INT`. -/
theorem commandDone_status_bit {n : Nat} (h : n ≠ param.stMechaInt) :
    (commandDone s).cmdStatus.getLsbD n = s.cmdStatus.getLsbD n :=
  getLsbD_putBit_ne _ _ _ _ (by decide) h

end

/-- Settles O8. -/
theorem unnamedOpcodesOnlyLog : Obligations.UnnamedOpcodesOnlyLog := fun op r s =>
  ⟨fun h => (decodeCommand_append op r).trans (commandOf_of_not_named op r h), exec_cmdOther op r s⟩

/-- Settles O9: the direction bit of the command word is a bit of its opcode, which tells the two commands apart. -/
theorem seekCommandsLatchTrackAndDirection : Obligations.SeekCommandsLatchTrackAndDirection := fun r s => by
  have hbit : ∀ op : BitVec 8, (op ++ r : Word).getLsbD param.cmdDirBit = op.getLsbD 1 := fun op => by
    rw [BitVec.getLsbD_append]
    rfl
  constructor
  · rw [exec_seekRead, latchSeek, hbit]
    rfl
  · rw [exec_seekWrite, latchSeek, hbit]
    rfl

/-- Settles O12: each of the three is `readRtc` with its pair of fields. -/
theorem readRtcCommandsSampleOnce : Obligations.ReadRtcCommandsSampleOnce := by
  intro r s t now c sampled
  have hpair : ∀ (pair : CalendarFields → Word) (first second : Int), pair c = time2data first second →
      Host.Outcome.next (readRtc pair s) = sampled first second := fun pair first second h => by
    rw [readRtc_eq]
    simp only [sampled, ← time2data_eq, ← h]
    rfl
  exact ⟨hpair _ _ _ rfl, hpair _ _ _ rfl, hpair _ _ _ rfl⟩

/-- Settles O14: a word is its opcode and the bits beside it. -/
theorem commandWriteExecutesItsCommand : Obligations.CommandWriteExecutesItsCommand := fun v s => by
  rw [decodeCommand, exec_commandOf, cmdWord_cmdOp_cmdRest]

/-- Settles O15: the frames of the effect and of `commandDone`, one after the other. -/
theorem everyCommandWriteRaisesMecha : Obligations.EveryCommandWriteRaisesMecha := by
  intro v s
  obtain ⟨t, heffect, hexec⟩ := exec_wrCmdStatus v s
  refine ⟨commandDone t, hexec, commandDone_mechaInt t, rfl, heffect.done_frame, ?_, ?_, ?_, ?_, ?_⟩
  · intro n hmecha hdisk hreset
    rw [commandDone_status_bit t hmecha, heffect.status_bit hdisk hreset]
  · exact heffect.latches
  · intro hop
    have hdone : (commandDone t).diskChng = t.diskChng := commandDone_status_bit t (by decide)
    rw [hdone]
    exact heffect.diskChng.resolve_right fun h => hop h.2
  · intro hop
    have hdone : (commandDone t).rstState = t.rstState := commandDone_status_bit t (by decide)
    rw [hdone, heffect.rstState hop]
  · exact heffect.clock

/-- Settles O6: the command write by `exec_wrCmdStatus`, every other arm by its shape. -/
theorem everyOperationCompletes : Obligations.EveryOperationCompletes := by
  intro i s
  cases i with
  | wrCmdStatus v =>
    obtain ⟨t, -, hexec⟩ := exec_wrCmdStatus v s
    exact ⟨_, hexec⟩
  | _ => exact ⟨_, rfl⟩

end Sys2Proof.Machine

namespace Sys2Proof.Machine

open Sys2Proof.Spec

/-! ## Register reads and writes with an effect (R132, R135, R136, R140, R141, R143, R146 to R151) -/

section
variable (s : State)

@[simp] theorem exec_rdCmdStatus : exec .rdCmdStatus s =
    .next ((pollResume s.refreshDiskPres).returnValue s.refreshDiskPres.cmdStatus) := rfl
@[simp] theorem exec_rdCurSector : exec .rdCurSector s = .next (s.returnValue s.curSector) := rfl
@[simp] theorem exec_rdHardReset : exec .rdHardReset s = .next (s.returnValue 0) := rfl
@[simp] theorem exec_rdMseq (k : Fin 16) : exec (.rdMseq k) s = .next (s.returnValue (s.mseqRam.get k)) := rfl
@[simp] theorem exec_rdUndef (a : Word) : exec (.rdUndef a) s = .next ((s.diag .addrRead a).returnValue 0) := rfl
@[simp] theorem exec_wrData (v : Word) : exec (.wrData v) s = .next { s with data := v } := rfl
@[simp] theorem exec_wrCurTk (v : Word) : exec (.wrCurTk v) s = .next (s.diag .writeUnspec (regAddress .curTk)) := rfl
@[simp] theorem exec_wrCurSector (v : Word) :
    exec (.wrCurSector v) s = .next (s.diag .writeUnspec (regAddress .curSector)) := rfl
@[simp] theorem exec_wrIdReg (v : Word) : exec (.wrIdReg v) s = .next (s.diag .writeUnspec (regAddress .idReg)) := rfl
@[simp] theorem exec_wrUndef (a v : Word) : exec (.wrUndef a v) s = .next (s.diag .addrWrite a) := rfl
@[simp] theorem exec_wrMseq (k : Fin 16) (v : Word) :
    exec (.wrMseq k v) s = .next { s with mseqRam := s.mseqRam.set k.val v k.isLt } := rfl

@[simp] theorem exec_wrHardReset (v : Word) : exec (.wrHardReset v) s =
    .next ((s.diagIf (decide (v ≠ param.hardResetMagic)) .hardResetMagic v).putStatus param.stRstState true) := rfl
@[simp] theorem exec_wrHostSecbyte (v : Word) : exec (.wrHostSecbyte v) s =
    .next ({ s with hostSecbyte := v }.diagIf (decide (v ≠ Config.expectedHostSecByte s.bmZone))
      .secbyteMismatch v) := rfl
@[simp] theorem exec_wrSecByte (v : Word) : exec (.wrSecByte v) s =
    .next ({ s with secByte := v }.diagIf (decide (v ≠ Config.expectedSecByte s.bmZone)) .secbyteMismatch v) := rfl

/-- A warning that a value draws unless it is the expected one. -/
theorem diagIf_ne (code : DiagCode) (v expected info : Word) : s.diagIf (decide (v ≠ expected)) code info =
    { s with diags := if v = expected then s.diags else s.diags ++ [{ code := code, info := info }] } := by
  unfold State.diagIf
  by_cases h : v = expected <;> simp [h]

/-- Acknowledging the block-transfer interrupt, as the statements spell it (R329, R330). -/
theorem clrIrq_bm_eq_bmAcknowledged : s.clrIrq .bm = bmAcknowledged s := s.clrIrq_bm_eq

@[simp] theorem refreshDiskPres_bmInt : s.refreshDiskPres.bmInt = s.bmInt :=
  getLsbD_putBit_ne _ _ _ _ (by decide) (by decide)

variable {s}

/-- A status read with nothing to acknowledge only refreshes (R132). -/
theorem pollResume_idle (h : s.bmInt = false ∨ s.curSector.toNat < 86) : pollResume s = s := by
  refine if_neg fun hresume => ?_
  obtain ⟨hint, hsector⟩ := Bool.and_eq_true_iff.mp hresume
  have hsector : 86 ≤ s.curSector.toNat := of_decide_eq_true hsector
  rcases h with h | h
  · rw [h] at hint; cases hint
  · omega

/-- Past the data sectors a status read acknowledges the pending interrupt and steps (R132). -/
theorem pollResume_resumes (hint : s.bmInt = true) (hsector : 86 ≤ s.curSector.toNat) :
    pollResume s = bmStep (bmAcknowledged s) := by
  have hresume : (s.bmInt && decide (param.pollResumeMinSector ≤ s.curSector.toNat)) = true := by
    rw [hint, Bool.true_and]
    exact decide_eq_true hsector
  rw [pollResume, if_pos hresume, clrIrq_bm_eq_bmAcknowledged]

end

/-- Settles O17. -/
theorem sectorHardResetAndUndefinedReads : Obligations.SectorHardResetAndUndefinedReads := fun a s =>
  ⟨exec_rdCurSector s, exec_rdHardReset s, exec_rdUndef s a⟩

/-- Settles O18: the refresh moves neither `BM_INT` nor the sector index, on which the resumption depends. -/
theorem statusReadRefreshesAcknowledgesAndSteps : Obligations.StatusReadRefreshesAcknowledgesAndSteps := by
  intro s fresh
  have hint : fresh.bmInt = s.bmInt := refreshDiskPres_bmInt s
  have hread : exec .rdCmdStatus s = .next ((pollResume fresh).returnValue fresh.cmdStatus) := exec_rdCmdStatus s
  refine ⟨fun hidle => ?_, fun hpending hsector hstopped => ?_, fun hpending hsector hrunning => ⟨?_, ?_⟩⟩
  · rw [hread, pollResume_idle (hidle.imp_left hint.trans)]
    rfl
  · have hstep : bmStep (bmAcknowledged fresh) = bmAcknowledged fresh := bmStep_not_running _ hstopped
    rw [hread, pollResume_resumes (hint.trans hpending) hsector, hstep]
    rfl
  · rw [hread, pollResume_resumes (hint.trans hpending) hsector]
    rfl
  · have hstep := bmStep_running (bmAcknowledged fresh) hrunning
    rw [setIrq_bm_eq_stepDone] at hstep
    rw [hstep]
    exact ⟨stepDone_bmInt _, stepDone_irqLine _⟩

/-- Settles O19: the three addresses are the model's register addresses, evaluated. -/
theorem dataUnspecifiedAndUndefinedWrites : Obligations.DataUnspecifiedAndUndefinedWrites := fun v a s =>
  ⟨exec_wrData s v, exec_wrCurTk s v, exec_wrCurSector s v, exec_wrIdReg s v, exec_wrUndef s a v⟩

/-- Settles O20. -/
theorem hardResetWriteSetsOnlyRstState : Obligations.HardResetWriteSetsOnlyRstState := fun v s => by
  rw [exec_wrHardReset, diagIf_ne]
  rfl

/-- Settles O21. -/
theorem byteCountWritesStoreAndWarn : Obligations.ByteCountWritesStoreAndWarn := fun v s => by
  rw [exec_wrHostSecbyte, exec_wrSecByte, diagIf_ne, diagIf_ne]
  exact ⟨rfl, rfl⟩

/-- Settles O23. -/
theorem mseqRamIsPlainStorage : Obligations.MseqRamIsPlainStorage := by
  refine fun k j v s => ⟨exec_rdMseq s k, _, exec_wrMseq s k v, ?_⟩
  have hset := Vector.getElem_set (xs := s.mseqRam) (x := v) k.isLt j.isLt
  rw [Vector.get_eq_getElem, Vector.get_eq_getElem, hset]
  simp only [Fin.ext_iff, eq_comm]

end Sys2Proof.Machine

namespace Sys2Proof.Machine

open Sys2Proof.Spec

/-! ## The step and what it refuses (R6, R7, R74, R78, R253) -/

section
variable {s : State} {op : Operation} {rest : List Operation}

/-- The oldest pending operation is taken off the list (R78). -/
theorem takePending_of_pending (h : s.pending = op :: rest) :
    s.takePending = some (op, { s with pending := rest }) := by
  rw [State.takePending, h]

theorem step_of_decode_ok {i : Instr} (h : s.pending = op :: rest) (hi : decode op = .ok i) :
    step s = exec i { s with pending := rest } := by
  rw [step, takePending_of_pending h]
  dsimp only
  rw [hi]

theorem step_of_decode_error {e : DecodeError} (h : s.pending = op :: rest) (he : decode op = .error e) :
    step s = .refused (refusalOf e) := by
  rw [step, takePending_of_pending h]
  dsimp only
  rw [he]

/-- With nothing pending the machine idles (R6, R45). -/
theorem step_of_idle (h : s.pending = []) : step s = .next s := by
  have htake : s.takePending = none := by rw [State.takePending, h]
  rw [step, htake]

end

/-! Where each format is outside the domain. -/

theorem misaligned_iff (a : Word) : misaligned a ↔ aligned a = false := by
  have hbit : ∀ k, a.getLsbD k = decide (a.toNat / 2 ^ k % 2 = 1) := fun k => Nat.testBit_eq_decide_div_mod_eq
  rw [misaligned, hbit, hbit, ← Bool.not_eq_true, aligned_iff, decide_eq_true_eq, decide_eq_true_eq]
  omega

theorem decodeRead_of_misaligned {a : Word} (h : misaligned a) : decodeRead a = .error .misalignedAddress := by
  rw [decodeRead, (misaligned_iff a).mp h]
  rfl

theorem decodeRead_error {a : Word} {e : DecodeError} (h : decodeRead a = .error e) : misaligned a := by
  unfold decodeRead at h
  split at h
  · cases h
  · next haligned => exact (misaligned_iff a).mpr (Bool.eq_false_iff.mpr haligned)

theorem decodeWrite_of_mask {a v m : Word} (h : m ≠ fullMask) : decodeWrite a v m = .error .partialWriteMask :=
  if_pos h

theorem decodeWrite_of_misaligned {a v : Word} (h : misaligned a) :
    decodeWrite a v fullMask = .error .misalignedAddress := by
  rw [decodeWrite, (misaligned_iff a).mp h]
  rfl

theorem decodeWrite_error {a v m : Word} {e : DecodeError} (h : decodeWrite a v m = .error e) :
    m ≠ fullMask ∨ misaligned a := by
  unfold decodeWrite at h
  split at h
  · next hmask => exact .inl hmask
  · split at h
    · cases h
    · next haligned => exact .inr ((misaligned_iff a).mpr (Bool.eq_false_iff.mpr haligned))

theorem decodeBmctl_of_missing {p : BmPart} {w : Word} (h : ¬ holdsComponent w p) :
    decodeBmctl p w = .error .notInControlWord := by
  cases p
  case resetRelease => exact if_pos (Bool.eq_true_of_not_eq_false h)
  all_goals exact if_neg h

theorem decodeBmctl_error {p : BmPart} {w : Word} {e : DecodeError} (h : decodeBmctl p w = .error e) :
    ¬ holdsComponent w p := by
  intro hholds
  cases p
  case resetRelease => exact absurd ((if_neg (Bool.eq_false_iff.mp hholds)).symm.trans h) nofun
  all_goals exact absurd ((if_pos hholds).symm.trans h) nofun

/-- Settles O3: each word evaluated under the decoder. -/
theorem sampleWordsDecode : Obligations.SampleWordsDecode :=
  ⟨rfl, rfl, rfl, rfl, rfl, rfl, rfl, rfl, rfl⟩

/-- Settles O4. -/
theorem stepRunsDecodedOperation : Obligations.StepRunsDecodedOperation :=
  ⟨fun _ _ _ _ => step_of_decode_ok, fun _ => step_of_idle⟩

/-- Settles O5: a refusal is the decoder's, since every operation that decodes completes. -/
theorem contractViolationsAreRefused : Obligations.ContractViolationsAreRefused := by
  refine ⟨fun s a rest hp h => ?_, fun s a v m rest hp h => ?_, fun s a v rest hp h => ?_, fun s d rest hp h => ?_,
    fun s p w rest hp h => ?_, fun s r hr => ?_⟩
  · exact step_of_decode_error hp (decodeRead_of_misaligned h)
  · exact step_of_decode_error hp (decodeWrite_of_mask h)
  · exact step_of_decode_error hp (decodeWrite_of_misaligned h)
  · exact step_of_decode_error hp (if_neg (Bool.eq_false_iff.mp h))
  · exact step_of_decode_error hp (decodeBmctl_of_missing h)
  · cases hp : s.pending with
    | nil => rw [step_of_idle hp] at hr; cases hr
    | cons op rest =>
      refine ⟨op, rest, rfl, ?_⟩
      cases hd : decode op with
      | ok i =>
        obtain ⟨t, hexec⟩ := everyOperationCompletes i { s with pending := rest }
        rw [step_of_decode_ok hp hd, hexec] at hr
        cases hr
      | error e =>
        cases op with
        | mmioRd a => exact .inl ⟨a, rfl, decodeRead_error hd⟩
        | mmioWr a v m => exact .inr (.inl ⟨a, v, m, rfl, decodeWrite_error hd⟩)
        | bmctl p w => exact .inr (.inr (.inr ⟨p, w, rfl, decodeBmctl_error hd⟩))
        | attach d =>
          refine .inr (.inr (.inl ⟨d, rfl, Bool.eq_false_iff.mpr fun hwf => ?_⟩))
          exact absurd ((if_pos hwf).symm.trans hd) nofun
        | cmd _ | step | cartAddr _ | dmaToHost _ _ _ | dmaFromHost _ _ _ | detach | powerOn => cases hd

end Sys2Proof.Machine

namespace Sys2Proof.Machine
open Sys2Proof.Spec

/-! ## The BM control write (R200 to R206)

The six parts composed once into `controlResult`; every statement about a control write starts from that closed form. -/

section
variable (v : Word) (s : State)
/-- The line check drives the line to the OR of the two sources (R205, R330). -/
theorem updateIrqLine_eq : s.updateIrqLine = lineTo (s.mechaInt || s.bmInt) s := rfl

/-- A control write before its reset part: the start-sector decode, the mecha reset and the continue flag
(R201 to R203). -/
def unreset : State :=
  { s with
    bmBlock := if bmcSector v = 0x00 then false else if bmcSector v = 0x5A then true else s.bmBlock
    curSector := if bmcSector v = 0x00 ∨ bmcSector v = 0x5A then 0 else s.curSector
    cmdStatus := if v.getLsbD param.bmcMechaRst then putBit s.cmdStatus param.stMechaInt false else s.cmdStatus
    bmStatusCtl := if v.getLsbD param.bmcBlkTrans then putBit s.bmStatusCtl param.bmsBlock true else s.bmStatusCtl
    diags :=
      if bmcSector v = 0x00 ∨ bmcSector v = 0x5A then s.diags
      else s.diags ++ [{ code := .startSector, info := (bmcSector v).setWidth 32 }] }

/-- Parts 1 to 3. -/
theorem parts_before_reset : bmPartBlkTrans v (bmPartMechaRst v (bmPartSector v s)) = unreset v s := by
  rw [bmPartSector_eq, bmPartMechaRst_eq, bmPartBlkTrans_eq]
  rfl

/-- Part 4, where the latch is still the one of the start of the write (R204). -/
theorem bmPartReset_unreset : bmPartReset v (unreset v s) =
    { (if bmResets v s then bmReset (unreset v s) else unreset v s) with
      bmResetHeld := v.getLsbD param.bmcReset } :=
  bmPartReset_eq v (unreset v s)

/-- Parts 1 to 5 (R201 to R205): the BM reset overrides what the parts before it wrote. -/
theorem bmControlUpToLine_eq : bmControlUpToLine v s = controlled v s := by
  rw [bmControlUpToLine, bmPartLine, parts_before_reset, bmPartReset_unreset, updateIrqLine_eq, controlled,
    controlledStatus, controlledFlags]
  by_cases h : bmResets v s = true
  · simp only [h, true_or, if_true]
    rfl
  · simp only [h, Bool.false_eq_true, false_or]
    rfl

/-- Part 6 (R206). -/
theorem bmPartStart_eq : bmPartStart v s = if v.getLsbD param.bmcStart then bmStep (started v s) else s := by
  have hstarted : (s.diagIf (modeMismatch v s) .bmModeMismatch v).putBms param.bmsRunning true = started v s := by
    simp only [modeMismatch, started, State.diagIf, State.putBms, beq_iff_eq]
  rw [bmPartStart, hstarted]

/-- The six parts of a control write (R200). -/
theorem bmControlWrite_eq : bmControlWrite v s = controlResult v s := by
  rw [bmControlWrite, bmControlUpToLine_eq, bmPartStart_eq, controlResult]

theorem controlResult_of_start {v : Word} (h : v.getLsbD param.bmcStart = true) :
    controlResult v s = bmStep (started v (controlled v s)) := if_pos h

theorem controlResult_of_not_start {v : Word} (h : v.getLsbD param.bmcStart = false) :
    controlResult v s = controlled v s := if_neg (Bool.eq_false_iff.mp h)

/-- Every operation that writes a control word (R118, R200). -/
theorem exec_control {i : Instr} {v : Word} (h : controlWordOf i = some v) :
    exec i s = .next (controlResult v s) := by
  have row : ∀ {w v : Word}, w = v → Host.Outcome.next (bmControlWrite w s) =
      (.next (controlResult v s) : Host.Outcome State Fault Refusal) := by
    rintro w _ rfl
    rw [bmControlWrite_eq]
  cases i with
  | wrBmStatusCtl w => cases h; exact row rfl
  | bmctlSector00 hi lo | bmctlSector5A hi lo | bmctlSectorOther hi b lo =>
    cases h; exact row (controlWordSector_append _ _ _)
  | bmctlMechaRst hi lo => cases h; exact row (controlWordMechaRst_append hi lo)
  | bmctlBlkTrans hi lo => cases h; exact row (controlWordBlkTrans_append hi lo)
  | bmctlReset hi lo => cases h; exact row (controlWordReset_append hi true lo)
  | bmctlResetRelease hi lo => cases h; exact row (controlWordReset_append hi false lo)
  | bmctlStart lo => cases h; exact row (controlWordStart_append lo)
  | _ => cases h

/-- `CMD_STATUS` after the BM reset clears its four bits (R204, R362). -/
def bmCleared (w : Word) : Word :=
  putBit (putBit (putBit (putBit w param.stDataRq false) param.stBmErr false) param.stC2Xfer false) param.stBmInt false

/-- The four bits that the BM reset clears. -/
def bmClearedBits : List Nat := [param.stDataRq, param.stBmErr, param.stC2Xfer, param.stBmInt]

theorem getLsbD_bmCleared (w : Word) (n : Nat) :
    (bmCleared w).getLsbD n = (!decide (n ∈ bmClearedBits) && w.getLsbD n) := by
  have hstep : ∀ (w : Word) (k : Nat), k < 32 → (putBit w k false).getLsbD n = (!decide (n = k) && w.getLsbD n) :=
    fun w k hk => by
      rw [getLsbD_putBit w k n false hk]
      by_cases h : n = k <;> simp [h]
  rw [bmCleared, hstep _ _ (by decide), hstep _ _ (by decide), hstep _ _ (by decide), hstep _ _ (by decide)]
  simp only [bmClearedBits, List.mem_cons, List.not_mem_nil, or_false, Bool.decide_or, Bool.not_or]
  ac_rfl

theorem bmCleared_bit_of_mem (w : Word) {n : Nat} (h : n ∈ bmClearedBits) : (bmCleared w).getLsbD n = false := by
  simp [getLsbD_bmCleared, h]

theorem bmCleared_bit_of_not_mem (w : Word) {n : Nat} (h : n ∉ bmClearedBits) :
    (bmCleared w).getLsbD n = w.getLsbD n := by
  simp [getLsbD_bmCleared, h]

/-- The status word of a control write: the mecha reset, then the BM reset (R202, R204). -/
theorem controlledStatus_eq : controlledStatus v s =
    let acked := if v.getLsbD param.bmcMechaRst then putBit s.cmdStatus param.stMechaInt false else s.cmdStatus
    if bmResets v s then bmCleared acked else acked := rfl

/-- An asserted reset level is latched and resets nothing (R204). -/
theorem bmResets_of_asserted {v : Word} (h : v.getLsbD param.bmcReset = true) : bmResets v s = false := by
  rw [bmResets, h]
  rfl

/-- The release of a held reset (R204). -/
theorem bmResets_of_released {v : Word} {s : State} (h : v.getLsbD param.bmcReset = false)
    (hheld : s.bmResetHeld = true) : bmResets v s = true := by
  rw [bmResets, h, hheld]
  rfl

end

/-- Settles O24. -/
theorem controlWriteActsInOrder : Obligations.ControlWriteActsInOrder := fun v s =>
  ⟨exec_control s (i := .wrBmStatusCtl v) rfl, exec_step s⟩

/-- Settles O25: the word that each row builds around its component is the one the statement spells. -/
theorem componentRowsWriteTheirWord : Obligations.ComponentRowsWriteTheirWord :=
  fun s _ _ _ _ _ _ _ _ _ _ =>
    ⟨exec_control s rfl, exec_control s rfl, exec_control s rfl, exec_control s rfl, exec_control s rfl,
     exec_control s rfl, exec_control s rfl, exec_control s rfl⟩

/-- Settles O26: the first write leaves the reset held, so that the second resets. -/
theorem releasedResetClearsTheSequencer : Obligations.ReleasedResetClearsTheSequencer := by
  intro s v w hvr hvs hvm hwr hws hwm
  have hv : bmResets v s = false := bmResets_of_asserted s hvr
  have hw : bmResets w (controlled v s) = true := bmResets_of_released hwr hvr
  have hstatus : (controlled v s).cmdStatus = s.cmdStatus := by
    change controlledStatus v s = _
    rw [controlledStatus_eq, hv, hvm]
    rfl
  have hcleared : (controlled w (controlled v s)).cmdStatus = bmCleared s.cmdStatus := by
    change controlledStatus w (controlled v s) = _
    rw [controlledStatus_eq, hw, hwm, hstatus]
    rfl
  have hflags : (controlled w (controlled v s)).bmStatusCtl = 0 := if_pos hw
  have hsector : (controlled w (controlled v s)).curSector = 0 := if_pos (.inl hw)
  have hblock : (controlled w (controlled v s)).bmBlock = false := if_pos hw
  have hclear : ∀ n, n ∈ bmClearedBits → (controlled w (controlled v s)).cmdStatus.getLsbD n = false := fun n h => by
    rw [hcleared, bmCleared_bit_of_mem _ h]
  have hkeep : ∀ n, n ∉ bmClearedBits →
      (controlled w (controlled v s)).cmdStatus.getLsbD n = s.cmdStatus.getLsbD n := fun n h => by
    rw [hcleared, bmCleared_bit_of_not_mem _ h]
  refine ⟨controlled v s, controlled w (controlled v s), ?_, hvr, hstatus, fun hvb => ?_, ?_, hwr,
    hclear _ (by decide), hclear _ (by decide), hclear _ (by decide), hclear _ (by decide), hflags, hsector, hblock,
    hkeep _ (by decide), hkeep _ (by decide), hkeep _ (by decide), hkeep _ (by decide),
    rfl, rfl, rfl, rfl, rfl, rfl, rfl, rfl, rfl, rfl, rfl, rfl, rfl, rfl⟩
  · rw [exec_control s (i := .wrBmStatusCtl v) rfl, controlResult_of_not_start s hvs]
  · change controlledFlags v s = _
    rw [controlledFlags, hv, hvb]
    rfl
  · rw [exec_control _ (i := .wrBmStatusCtl w) rfl, controlResult_of_not_start _ hws]

end Sys2Proof.Machine

namespace Sys2Proof.Machine

open Sys2Proof.Spec

/-! ## Seeks and sector accesses (R233, R234, R254 to R258) -/

section
variable (s : State)

/-- The cross-check of a seek that finds a 32-bit offset, in the words of the statements (R258). -/
theorem crossCheck_eq (d : Disk) {e off : Nat} (sys : Bool) (hoff : off < 2 ^ 32) :
    (if e = 0 ∧ structMismatch d sys (BitVec.ofNat 32 off) = true then putBit s.bmStatusCtl param.bmsMicro true
      else s.bmStatusCtl) = crossChecked s d e off sys := by
  simp only [crossChecked, structMismatch_eq, BitVec.toNat_ofNat, Nat.mod_eq_of_lt hoff, Bool.and_eq_true,
    decide_eq_true_eq, and_assoc]

theorem seek_of_none (h : s.disk = none) : seek s = (s.diag .imageRange 0, true) := by
  rw [seek, h]

theorem seek_of_disk {d : Disk} (h : s.disk = some d) : seek s =
    applySeek s d s.effectiveSector (resolve d s.lbaPhysTable s.curTk s.blockNum s.effectiveSector) := by
  rw [seek, h]

theorem seek_of_unresolved {d : Disk} {c : BitVec 16} (h : s.disk = some d)
    (hc : resolve d s.lbaPhysTable s.curTk s.blockNum s.effectiveSector = .unresolved c) :
    seek s = (s.diag .seekUnresolved (c.setWidth 32), true) := by
  rw [seek_of_disk s h, hc]
  rfl

theorem seek_of_found {d : Disk} {zone : Fin 16} {off : Nat} {sys : Bool}
    (h : seekFinds s d s.effectiveSector zone off sys) : seek s =
      ({ s with
        bmZone := zone, bmTrackOffset := BitVec.ofNat 32 off
        bmStatusCtl := crossChecked s d s.effectiveSector off sys }, false) := by
  obtain ⟨hdisk, hresolve, hoff⟩ := h
  rw [seek_of_disk s hdisk, hresolve, ← crossCheck_eq s d sys hoff]
  rfl

theorem seek_of_direct {d : Disk} (h : s.disk = some d) (hf : d.format = .direct) : seek s = (s, false) := by
  rw [seek_of_disk s h, resolve, hf]
  rfl

/-- With no disk both the seek and the sector access are logged (R77, R254). -/
theorem seekAndRead_of_none (h : s.disk = none) :
    seekAndRead s = logged .imageRange s.bmTrackOffset (logged .imageRange 0 s) := by
  rw [seekAndRead, seek_of_none s h, sectorRead_of_fail _ _ (.inr (.inl rfl))]
  rfl

theorem seekAndWrite_of_none (h : s.disk = none) :
    seekAndWrite s = logged .imageRange s.bmTrackOffset (logged .imageRange 0 s) := by
  rw [seekAndWrite, seek_of_none s h, sectorWrite_of_fail _ _ (.inr (.inl rfl))]
  rfl

section
variable {s} {d : Disk} {c : BitVec 16} (hdisk : s.disk = some d)
  (hresolve : resolve d s.lbaPhysTable s.curTk s.blockNum s.effectiveSector = .unresolved c)
include hdisk hresolve

theorem seekAndRead_of_unresolved : seekAndRead s =
    logged .imageRange s.bmTrackOffset (logged .seekUnresolved (c.setWidth 32) s) := by
  rw [seekAndRead, seek_of_unresolved s hdisk hresolve, sectorRead_of_fail _ _ (.inr (.inl rfl))]
  rfl

theorem seekAndWrite_of_unresolved : seekAndWrite s =
    logged .imageRange s.bmTrackOffset (logged .seekUnresolved (c.setWidth 32) s) := by
  rw [seekAndWrite, seek_of_unresolved s hdisk hresolve, sectorWrite_of_fail _ _ (.inr (.inl rfl))]
  rfl

end

/-! A seek that does not fail, then an access inside or outside the image: `DIRECT` seeks are the case in which the
seek leaves the state alone. -/

section
variable {s} {t : State} {d : Disk} (hseek : seek s = (t, false)) (hdisk : t.disk = some d)
include hseek hdisk

theorem seekAndRead_of_inImage (hin : t.bmTrackOffset.toNat + secSize16 t.bmZone ≤ d.size) : seekAndRead s =
    { t with
      dsBuf := Memory.writeBytes t.dsBuf (fun i => i)
        (fun i => Memory.read d.data (t.bmTrackOffset.toNat + i)) (secSize16 t.bmZone) } := by
  rw [seekAndRead, hseek]
  exact sectorRead_of_inImage t d hdisk (decide_eq_true hin)

theorem seekAndWrite_of_inImage (hin : t.bmTrackOffset.toNat + secSize16 t.bmZone ≤ d.size) : seekAndWrite s =
    { t with
      disk := some { d with
        data := Memory.writeBytes d.data (fun i => t.bmTrackOffset.toNat + i)
          (fun i => Memory.read t.dsBuf i) (secSize16 t.bmZone) }
      sysDataWritten := systemWritten t d t.bmTrackOffset.toNat (secSize16 t.bmZone) } := by
  rw [seekAndWrite, hseek, systemWritten, ← overSystemData_eq]
  exact sectorWrite_of_inImage t d hdisk (decide_eq_true hin)

theorem seekAndRead_of_outside (hout : d.size < t.bmTrackOffset.toNat + secSize16 t.bmZone) :
    seekAndRead s = logged .imageRange t.bmTrackOffset t := by
  rw [seekAndRead, hseek]
  exact sectorRead_of_fail t false (.inr (.inr ⟨d, hdisk, decide_eq_false (Nat.not_le.mpr hout)⟩))

theorem seekAndWrite_of_outside (hout : d.size < t.bmTrackOffset.toNat + secSize16 t.bmZone) :
    seekAndWrite s = logged .imageRange t.bmTrackOffset t := by
  rw [seekAndWrite, hseek]
  exact sectorWrite_of_fail t false (.inr (.inr ⟨d, hdisk, decide_eq_false (Nat.not_le.mpr hout)⟩))

end

/-! The effective data sector (R254, D21). -/

variable {s}

theorem effectiveSector_of_read (h : s.bmWrite = false) : s.effectiveSector = s.curSector.toNat := by
  rw [State.effectiveSector, h]
  simp

theorem effectiveSector_of_write (h : s.bmWrite = true) (hpos : 1 ≤ s.curSector.toNat) :
    s.effectiveSector = s.curSector.toNat - 1 := by
  rw [State.effectiveSector, h]
  exact BitVec.toNat_sub_of_le (BitVec.le_def.mpr hpos)

/-! What a copied sector leaves in a memory. -/

theorem windowWritten_writeBytes {m : Memory} (h : Memory.wf m = true) (base n : Nat) (src : Nat → Byte) :
    windowWritten m (Memory.writeBytes m (fun i => base + i) src n) base n src :=
  Memory.read_writeBytes_window h base src n

theorem windowWritten_writeBytes_zero {m : Memory} (h : Memory.wf m = true) (n : Nat) (src : Nat → Byte) :
    windowWritten m (Memory.writeBytes m (fun i => i) src n) 0 n src := by
  have hdst : (fun i : Nat => i) = fun i => 0 + i := funext fun i => (Nat.zero_add i).symm
  rw [hdst]
  exact windowWritten_writeBytes h 0 n src

/-- The access that a found offset leads to. -/
theorem seekAndRead_of_found {d : Disk} {zone : Fin 16} {off : Nat} {sys : Bool}
    (h : seekFinds s d s.effectiveSector zone off sys) (hin : off + secSize16 zone ≤ d.size) : seekAndRead s =
      { s with
        bmZone := zone, bmTrackOffset := BitVec.ofNat 32 off
        bmStatusCtl := crossChecked s d s.effectiveSector off sys
        dsBuf := Memory.writeBytes s.dsBuf (fun i => i) (fun i => Memory.read d.data (off + i)) (secSize16 zone) } := by
  have hoff : (BitVec.ofNat 32 off).toNat = off := by rw [BitVec.toNat_ofNat, Nat.mod_eq_of_lt h.2.2]
  have hin' : (BitVec.ofNat 32 off).toNat + secSize16 zone ≤ d.size := by rwa [hoff]
  have hmove := seekAndRead_of_inImage (seek_of_found s h) h.1 hin'
  simp only [hoff] at hmove
  exact hmove

theorem seekAndWrite_of_found {d : Disk} {zone : Fin 16} {off : Nat} {sys : Bool}
    (h : seekFinds s d s.effectiveSector zone off sys) (hin : off + secSize16 zone ≤ d.size) : seekAndWrite s =
      { s with
        bmZone := zone, bmTrackOffset := BitVec.ofNat 32 off
        bmStatusCtl := crossChecked s d s.effectiveSector off sys
        disk := some { d with
          data := Memory.writeBytes d.data (fun i => off + i) (Memory.read s.dsBuf) (secSize16 zone) }
        sysDataWritten := systemWritten s d off (secSize16 zone) } := by
  have hoff : (BitVec.ofNat 32 off).toNat = off := by rw [BitVec.toNat_ofNat, Nat.mod_eq_of_lt h.2.2]
  have hin' : (BitVec.ofNat 32 off).toNat + secSize16 zone ≤ d.size := by rwa [hoff]
  have hmove := seekAndWrite_of_inImage (seek_of_found s h) h.1 hin'
  simp only [hoff] at hmove
  exact hmove

end

end Sys2Proof.Machine

namespace Sys2Proof.Machine

open Sys2Proof.Spec

/-! ## The branches of a step, one equation each (R223 to R231) -/

section
variable {s : State}

@[simp] theorem seekAndRead_cmdStatus : (seekAndRead s).cmdStatus = s.cmdStatus :=
  (congrArg State.cmdStatus (seekAndRead_eq s) :)

@[simp] theorem seekAndWrite_cmdStatus : (seekAndWrite s).cmdStatus = s.cmdStatus :=
  (congrArg State.cmdStatus (seekAndWrite_eq s) :)

theorem seekAndRead_bmStatusCtl : (seekAndRead s).bmStatusCtl = (seek s).1.bmStatusCtl :=
  (congrArg State.bmStatusCtl (seekAndRead_eq s) :)

theorem seekAndWrite_bmStatusCtl : (seekAndWrite s).bmStatusCtl = (seek s).1.bmStatusCtl :=
  (congrArg State.bmStatusCtl (seekAndWrite_eq s) :)

theorem writeBranch_data (hpos : 1 ≤ s.curSector.toNat) (hle : s.curSector.toNat ≤ 84) : writeBranch s =
    { seekAndWrite s with
      curSector := s.curSector + 1, cmdStatus := putBit s.cmdStatus param.stDataRq true } := by
  rw [writeBranch, if_neg (by omega), if_pos hle, ← seekAndWrite_cmdStatus]
  rfl

theorem writeBranch_last_flips (h : s.curSector = 85) (hcont : s.continueBlock = true) : writeBranch s =
    { seekAndWrite s with
      bmBlock := !s.bmBlock
      curSector := 1
      bmStatusCtl := putBit (seekAndWrite s).bmStatusCtl param.bmsBlock false
      cmdStatus := putBit s.cmdStatus param.stDataRq true } := by
  have hc : s.curSector.toNat = 85 := by rw [h]; rfl
  rw [writeBranch, if_neg (by omega), if_neg (by omega), if_pos hc, if_pos hcont, ← seekAndWrite_cmdStatus]
  rfl

theorem writeBranch_last_stops (h : s.curSector = 85) (hcont : s.continueBlock = false) : writeBranch s =
    { seekAndWrite s with
      curSector := 86
      bmStatusCtl := putBit (seekAndWrite s).bmStatusCtl param.bmsRunning false } := by
  have hc : s.curSector.toNat = 85 := by rw [h]; rfl
  rw [writeBranch, if_neg (by omega), if_neg (by omega), if_pos hc, if_neg (Bool.eq_false_iff.mp hcont)]
  rfl

theorem writeBranch_overrun (h : 85 < s.curSector.toNat) : writeBranch s = s.diag .writeOverrun s.curSector := by
  rw [writeBranch, if_neg (by omega), if_neg (by omega), if_neg (by omega)]

/-- The condition of the quirk in the words of the statements (R227). -/
theorem quirk_iff_track6 : quirk s = true ↔ track6 s := by
  unfold quirk track6
  cases hd : s.disk with
  | none => simp
  | some d => simp [param, Config.quirkTrack, and_assoc]

theorem readBranch_quirk (h : track6 s) : readBranch s =
    { s with
      cmdStatus := putBit s.cmdStatus param.stDataRq false
      bmStatusCtl := putBit s.bmStatusCtl param.bmsMicro true } := by
  rw [readBranch, if_pos (quirk_iff_track6.mpr h)]
  rfl

section
variable (hquirk : ¬ track6 s)
include hquirk

theorem readBranch_data (hle : s.curSector.toNat ≤ 84) : readBranch s =
    { seekAndRead s with
      curSector := s.curSector + 1, cmdStatus := putBit s.cmdStatus param.stDataRq true } := by
  rw [readBranch, if_neg (quirk_iff_track6.not.mpr hquirk), if_pos hle, ← seekAndRead_cmdStatus]
  rfl

theorem readBranch_correction (hge : 85 ≤ s.curSector.toNat) (hle : s.curSector.toNat ≤ 88) : readBranch s =
    { s with
      c2Buf := zeroFillC2 s.c2Buf (s.curSector.toNat - 85)
      curSector := s.curSector + 1
      cmdStatus := if s.curSector = 88 then putBit s.cmdStatus param.stC2Xfer true else s.cmdStatus } := by
  have hfourth : s.curSector.toNat = 88 ↔ s.curSector = 88 := BitVec.toNat_inj (y := 88)
  rw [readBranch, if_neg (quirk_iff_track6.not.mpr hquirk), if_neg (by omega), if_pos hle]
  simp only [hfourth]
  rfl

theorem readBranch_gap_flips (h : s.curSector = 89) (hcont : s.continueBlock = true) : readBranch s =
    { s with
      bmBlock := !s.bmBlock, curSector := 0, bmStatusCtl := putBit s.bmStatusCtl param.bmsBlock false } := by
  have hc : s.curSector.toNat = Config.gapSector := by rw [h]; rfl
  have hgap : Config.gapSector = 89 := rfl
  rw [readBranch, if_neg (quirk_iff_track6.not.mpr hquirk), if_neg (by omega), if_neg (by omega), if_pos hc,
    if_pos hcont]
  rfl

theorem readBranch_gap_stops (h : s.curSector = 89) (hcont : s.continueBlock = false) : readBranch s =
    { s with curSector := 90, bmStatusCtl := putBit s.bmStatusCtl param.bmsRunning false } := by
  have hc : s.curSector.toNat = Config.gapSector := by rw [h]; rfl
  have hgap : Config.gapSector = 89 := rfl
  rw [readBranch, if_neg (quirk_iff_track6.not.mpr hquirk), if_neg (by omega), if_neg (by omega), if_pos hc,
    if_neg (Bool.eq_false_iff.mp hcont)]
  rfl

theorem readBranch_overrun (h : 89 < s.curSector.toNat) : readBranch s = s.diag .readOverrun s.curSector := by
  have hgap : Config.gapSector = 89 := rfl
  rw [readBranch, if_neg (quirk_iff_track6.not.mpr hquirk), if_neg (by omega), if_neg (by omega), if_neg (by omega)]

end

/-- The `STEP` event in the read direction. -/
theorem exec_step_read (h : s.running = true) (hr : s.bmWrite = false) :
    exec .step s = .next (stepDone (readBranch s)) := by
  rw [exec_step_running h, if_neg (Bool.eq_false_iff.mp hr)]

/-- Off sector 0 the cross-check of a seek leaves the flags alone (R258). -/
theorem crossChecked_of_ne_zero (d : Disk) {e : Nat} (off : Nat) (sys : Bool) (h : e ≠ 0) :
    crossChecked s d e off sys = s.bmStatusCtl :=
  if_neg fun hc => h hc.1

/-- A seek sets the micro flag at effective sector 0 only (R258). -/
theorem seek_micro : (seek s).1.bmStatusCtl = s.bmStatusCtl ∨
    (s.effectiveSector = 0 ∧ (seek s).1.bmStatusCtl = putBit s.bmStatusCtl param.bmsMicro true) := by
  unfold seek
  split
  · exact .inl rfl
  · unfold applySeek
    split
    · exact .inl rfl
    · exact .inl rfl
    · exact .inl rfl
    · dsimp only
      split
      · next h => exact .inr ⟨h.1, rfl⟩
      · exact .inl rfl

end

/-! ## The sequencer's statements -/

/-- Settles O30. -/
theorem writeStepStoresTheBufferedSector : Obligations.WriteStepStoresTheBufferedSector := by
  intro s d zone off sys hrun hw hpos hle hfinds hin
  have heff := effectiveSector_of_write hw hpos
  rw [← heff] at hfinds ⊢
  refine ⟨_, ?_, fun hwf => ⟨Memory.wf_writeBytes hwf _ _ _, windowWritten_writeBytes hwf off _ _⟩⟩
  rw [exec_step_write hrun hw, writeBranch_data hpos hle, seekAndWrite_of_found hfinds hin]

/-- Settles O31: sector 84 is not sector 0, so that the cross-check is silent. -/
theorem lastWriteStepFlipsOrStops : Obligations.LastWriteStepFlipsOrStops := by
  intro s hrun hw hsector
  have hnat : s.curSector.toNat = 85 := by rw [hsector]; rfl
  have heff : s.effectiveSector = 84 := by rw [effectiveSector_of_write hw (by omega), hnat]
  refine ⟨fun hcont => ?_, fun hcont => ?_, fun d zone off sys hfinds hin => ?_⟩
  · rw [exec_step_write hrun hw, writeBranch_last_flips hsector hcont]
  · rw [exec_step_write hrun hw, writeBranch_last_stops hsector hcont]
  · refine ⟨_, ?_, fun hwf => ⟨Memory.wf_writeBytes hwf _ _ _, windowWritten_writeBytes hwf off _ _⟩⟩
    rw [← heff] at hfinds
    rw [seekAndWrite_of_found hfinds hin, crossChecked_of_ne_zero d off sys (by omega)]

/-- Settles O32. -/
theorem overrunStepsOnlyLog : Obligations.OverrunStepsOnlyLog := fun s hrun =>
  ⟨fun hw hover => by
    rw [exec_step_write hrun hw, writeBranch_overrun hover]
    rfl,
   fun hr hover hquirk => by
    rw [exec_step_read hrun hr, readBranch_overrun hquirk hover]
    rfl⟩

/-- Settles O33. -/
theorem trackSixStepFails : Obligations.TrackSixStepFails := fun s hrun hr hquirk => by
  rw [exec_step_read hrun hr, readBranch_quirk hquirk]

/-- Settles O34: in the read direction the effective sector is the index. -/
theorem readStepSeeksReadsAdvances : Obligations.ReadStepSeeksReadsAdvances := by
  intro s hrun hr hquirk hle
  constructor
  · rw [exec_step_read hrun hr, readBranch_data hquirk hle]
  · rw [seekAndRead_bmStatusCtl]
    refine seek_micro.imp_right (And.imp_left fun heff => ?_)
    rw [effectiveSector_of_read hr] at heff
    exact BitVec.eq_of_toNat_eq heff

/-- Settles O35. -/
theorem readStepLoadsTheSector : Obligations.ReadStepLoadsTheSector := by
  intro s d zone off sys hrun hr hquirk hle hfinds hin
  rw [← effectiveSector_of_read hr] at hfinds
  refine ⟨_, ?_, fun hwf => ⟨Memory.wf_writeBytes hwf _ _ _, windowWritten_writeBytes_zero hwf _ _⟩⟩
  rw [exec_step_read hrun hr, readBranch_data hquirk hle, seekAndRead_of_found hfinds hin, effectiveSector_of_read hr]

/-- Settles O36. -/
theorem correctionStepsZeroTheirQuarter : Obligations.CorrectionStepsZeroTheirQuarter := by
  intro s hrun hr hquirk hge hle
  refine ⟨_, ?_, fun hwf => ⟨Memory.wf_writeBytes hwf _ _ _, windowWritten_writeBytes hwf _ _ _⟩⟩
  rw [exec_step_read hrun hr, readBranch_correction hquirk hge hle]
  rfl

/-- Settles O37. -/
theorem gapStepFlipsOrStops : Obligations.GapStepFlipsOrStops := fun s hrun hr hquirk hsector =>
  ⟨fun hcont => by rw [exec_step_read hrun hr, readBranch_gap_flips hquirk hsector hcont],
   fun hcont => by rw [exec_step_read hrun hr, readBranch_gap_stops hquirk hsector hcont]⟩

/-- Settles O38: the four ways to fail, each from the seek it has, and the slot that goes on in any case. -/
theorem failedSectorAccessMovesNoBytes : Obligations.FailedSectorAccessMovesNoBytes := by
  intro s
  refine ⟨fun hnone => ⟨seekAndRead_of_none s hnone, seekAndWrite_of_none s hnone⟩,
    fun d c hdisk hc => ⟨seekAndRead_of_unresolved hdisk hc, seekAndWrite_of_unresolved hdisk hc⟩,
    fun d zone off sys hfinds hout => ?_, fun d hdisk hformat hout => ?_, fun hrun hw hpos hle => ?_⟩
  · have hoff : (BitVec.ofNat 32 off).toNat = off := by rw [BitVec.toNat_ofNat, Nat.mod_eq_of_lt hfinds.2.2]
    rw [← hoff] at hout
    have hread := seekAndRead_of_outside (seek_of_found s hfinds) hfinds.1 hout
    exact ⟨hread, (seekAndWrite_of_outside (seek_of_found s hfinds) hfinds.1 hout).trans hread.symm⟩
  · have hseek := seek_of_direct s hdisk hformat
    exact ⟨seekAndRead_of_outside hseek hdisk hout, seekAndWrite_of_outside hseek hdisk hout⟩
  · rw [exec_step_write hrun hw, writeBranch_data hpos hle]

/-- Settles O39. -/
theorem directImageSeeksNowhere : Obligations.DirectImageSeeksNowhere := by
  intro s d hdisk hformat hin
  have hseek := seek_of_direct s hdisk hformat
  exact ⟨⟨_, seekAndRead_of_inImage hseek hdisk hin, fun hwf => windowWritten_writeBytes_zero hwf _ _⟩,
    ⟨_, seekAndWrite_of_inImage hseek hdisk hin, fun hwf => windowWritten_writeBytes hwf _ _ _⟩⟩

end Sys2Proof.Machine

namespace Sys2Proof.Machine

open Sys2Proof.Spec

/-! ## What a step does to the two status words (R223 to R232, R238)

Each branch of a step writes at most one named bit of `CMD_STATUS`, and sets the micro flag or clears the two others
of `BM_STATUS_CTL`; what a step never does to a status bit follows from that alone. -/

/-- `CMD_STATUS` before and after a branch. -/
inductive BranchStatus (w : Word) : Word → Prop
  | kept : BranchStatus w w
  | dataRq (b : Bool) : BranchStatus w (putBit w param.stDataRq b)
  | c2Xfer : BranchStatus w (putBit w param.stC2Xfer true)

/-- `BM_STATUS_CTL` before and after a branch. -/
inductive BranchFlags (w : Word) : Word → Prop
  | kept : BranchFlags w w
  | micro {x : Word} (h : BranchFlags w x) : BranchFlags w (putBit x param.bmsMicro true)
  | block {x : Word} (h : BranchFlags w x) : BranchFlags w (putBit x param.bmsBlock false)
  | running {x : Word} (h : BranchFlags w x) : BranchFlags w (putBit x param.bmsRunning false)

theorem BranchStatus.bit {w x : Word} (h : BranchStatus w x) {n : Nat} (hdata : n ≠ param.stDataRq)
    (hc2 : n ≠ param.stC2Xfer) : x.getLsbD n = w.getLsbD n := by
  cases h with
  | kept => rfl
  | dataRq b => exact getLsbD_putBit_ne _ _ _ _ (by decide) hdata
  | c2Xfer => exact getLsbD_putBit_ne _ _ _ _ (by decide) hc2

theorem BranchStatus.c2Xfer_of_set {w x : Word} (h : BranchStatus w x) (hset : w.getLsbD param.stC2Xfer = true) :
    x.getLsbD param.stC2Xfer = true := by
  cases h with
  | kept => exact hset
  | dataRq b => exact (getLsbD_putBit_ne _ _ _ _ (by decide) (by decide)).trans hset
  | c2Xfer => exact getLsbD_putBit_self _ _ _ (by decide)

theorem BranchFlags.micro_of_set {w x : Word} (h : BranchFlags w x) (hset : w.getLsbD param.bmsMicro = true) :
    x.getLsbD param.bmsMicro = true := by
  induction h with
  | kept => exact hset
  | micro _ _ => exact getLsbD_putBit_self _ _ _ (by decide)
  | block _ ih => exact (getLsbD_putBit_ne _ _ _ _ (by decide) (by decide)).trans ih
  | running _ ih => exact (getLsbD_putBit_ne _ _ _ _ (by decide) (by decide)).trans ih

theorem BranchFlags.block_of_clear {w x : Word} (h : BranchFlags w x) (hclear : w.getLsbD param.bmsBlock = false) :
    x.getLsbD param.bmsBlock = false := by
  induction h with
  | kept => exact hclear
  | micro _ ih => exact (getLsbD_putBit_ne _ _ _ _ (by decide) (by decide)).trans ih
  | block _ _ => exact getLsbD_putBit_self _ _ _ (by decide)
  | running _ ih => exact (getLsbD_putBit_ne _ _ _ _ (by decide) (by decide)).trans ih

section
variable (s : State)

/-- The write branches, each under the sector index that selects it (R223 to R226). -/
theorem writeBranch_cases {P : State → Prop}
    (prime : s.curSector = 0 → P { s with curSector := 1, cmdStatus := putBit s.cmdStatus param.stDataRq true })
    (data : s.curSector.toNat ≤ 84 →
      P { seekAndWrite s with curSector := s.curSector + 1, cmdStatus := putBit s.cmdStatus param.stDataRq true })
    (flips : P { seekAndWrite s with
      bmBlock := !s.bmBlock
      curSector := 1
      bmStatusCtl := putBit (seekAndWrite s).bmStatusCtl param.bmsBlock false
      cmdStatus := putBit s.cmdStatus param.stDataRq true })
    (stops : P { seekAndWrite s with
      curSector := 86
      bmStatusCtl := putBit (seekAndWrite s).bmStatusCtl param.bmsRunning false })
    (overrun : P (s.diag .writeOverrun s.curSector)) : P (writeBranch s) := by
  have hnat : ∀ k : Nat, k < 2 ^ 32 → s.curSector.toNat = k → s.curSector = BitVec.ofNat 32 k := fun k hk h => by
    rw [← h, BitVec.ofNat_toNat, BitVec.setWidth_eq]
  by_cases h0 : s.curSector.toNat = 0
  · rw [writeBranch_sectorZero (hnat 0 (by decide) h0)]
    exact prime (hnat 0 (by decide) h0)
  by_cases h84 : s.curSector.toNat ≤ 84
  · rw [writeBranch_data (by omega) h84]
    exact data h84
  by_cases h85 : s.curSector.toNat = 85
  · have hsector := hnat 85 (by decide) h85
    cases hcont : s.continueBlock
    · rw [writeBranch_last_stops hsector hcont]
      exact stops
    · rw [writeBranch_last_flips hsector hcont]
      exact flips
  · rw [writeBranch_overrun (by omega)]
    exact overrun

/-- The read branches, each under the sector index that selects it (R227 to R231). -/
theorem readBranch_cases {P : State → Prop}
    (quirk : P { s with
      cmdStatus := putBit s.cmdStatus param.stDataRq false
      bmStatusCtl := putBit s.bmStatusCtl param.bmsMicro true })
    (data : s.curSector.toNat ≤ 84 →
      P { seekAndRead s with curSector := s.curSector + 1, cmdStatus := putBit s.cmdStatus param.stDataRq true })
    (correction : 85 ≤ s.curSector.toNat → s.curSector.toNat ≤ 88 → P { s with
      c2Buf := zeroFillC2 s.c2Buf (s.curSector.toNat - 85)
      curSector := s.curSector + 1
      cmdStatus := if s.curSector = 88 then putBit s.cmdStatus param.stC2Xfer true else s.cmdStatus })
    (flips : P { s with
      bmBlock := !s.bmBlock, curSector := 0, bmStatusCtl := putBit s.bmStatusCtl param.bmsBlock false })
    (stops : P { s with curSector := 90, bmStatusCtl := putBit s.bmStatusCtl param.bmsRunning false })
    (overrun : P (s.diag .readOverrun s.curSector)) : P (readBranch s) := by
  by_cases hquirk : track6 s
  · rw [readBranch_quirk hquirk]
    exact quirk
  by_cases h84 : s.curSector.toNat ≤ 84
  · rw [readBranch_data hquirk h84]
    exact data h84
  by_cases h88 : s.curSector.toNat ≤ 88
  · rw [readBranch_correction hquirk (by omega) h88]
    exact correction (by omega) h88
  by_cases h89 : s.curSector.toNat = 89
  · have hsector : s.curSector = 89 := BitVec.eq_of_toNat_eq h89
    cases hcont : s.continueBlock
    · rw [readBranch_gap_stops hquirk hsector hcont]
      exact stops
    · rw [readBranch_gap_flips hquirk hsector hcont]
      exact flips
  · rw [readBranch_overrun hquirk (by omega)]
    exact overrun

/-- The branch that a running step takes (R222). -/
def stepBranch : State := if s.bmWrite then writeBranch s else readBranch s

theorem bmStep_of_running {s : State} (h : s.running = true) : bmStep s = stepDone (stepBranch s) := by
  rw [bmStep_running s h, setIrq_bm_eq_stepDone, stepBranch]

theorem seek_flags : BranchFlags s.bmStatusCtl (seek s).1.bmStatusCtl := by
  rcases seek_bmStatusCtl s with h | h <;> rw [h]
  · exact .kept
  · exact .micro .kept

theorem stepBranch_status : BranchStatus s.cmdStatus (stepBranch s).cmdStatus := by
  unfold stepBranch
  split
  · apply writeBranch_cases s (P := fun t => BranchStatus s.cmdStatus t.cmdStatus)
    case prime | data => exact fun _ => .dataRq true
    case flips => exact .dataRq true
    case stops =>
      rw [seekAndWrite_cmdStatus]
      exact .kept
    case overrun => exact .kept
  · apply readBranch_cases s (P := fun t => BranchStatus s.cmdStatus t.cmdStatus)
    case quirk => exact .dataRq false
    case data => exact fun _ => .dataRq true
    case correction =>
      intro _ _
      dsimp only
      split
      · exact .c2Xfer
      · exact .kept
    case flips | stops | overrun => exact .kept

theorem stepBranch_flags : BranchFlags s.bmStatusCtl (stepBranch s).bmStatusCtl := by
  have hread : BranchFlags s.bmStatusCtl (seekAndRead s).bmStatusCtl := seekAndRead_bmStatusCtl ▸ seek_flags s
  have hwrite : BranchFlags s.bmStatusCtl (seekAndWrite s).bmStatusCtl := seekAndWrite_bmStatusCtl ▸ seek_flags s
  unfold stepBranch
  split
  · apply writeBranch_cases s (P := fun t => BranchFlags s.bmStatusCtl t.bmStatusCtl)
    case prime => exact fun _ => .kept
    case data => exact fun _ => hwrite
    case flips => exact .block hwrite
    case stops => exact .running hwrite
    case overrun => exact .kept
  · apply readBranch_cases s (P := fun t => BranchFlags s.bmStatusCtl t.bmStatusCtl)
    case quirk => exact .micro .kept
    case data => exact fun _ => hread
    case correction => exact fun _ _ => .kept
    case flips => exact .block .kept
    case stops => exact .running .kept
    case overrun => exact .kept

/-! The bits of a step. -/

/-- The status bits that no step writes. -/
theorem bmStep_status_bit {n : Nat} (hdata : n ≠ param.stDataRq) (hc2 : n ≠ param.stC2Xfer)
    (hint : n ≠ param.stBmInt) : (bmStep s).cmdStatus.getLsbD n = s.cmdStatus.getLsbD n := by
  cases hrun : s.running
  · rw [bmStep_not_running s hrun]
  · rw [bmStep_of_running hrun]
    exact (getLsbD_putBit_ne _ _ _ _ (by decide) hint).trans ((stepBranch_status s).bit hdata hc2)

theorem bmStep_c2Xfer (h : s.c2Xfer = true) : (bmStep s).c2Xfer = true := by
  cases hrun : s.running
  · rwa [bmStep_not_running s hrun]
  · rw [bmStep_of_running hrun]
    exact (getLsbD_putBit_ne _ _ _ _ (by decide) (by decide)).trans ((stepBranch_status s).c2Xfer_of_set h)

/-- A running step raises `BM_INT`, a stopped one leaves it alone (R221, R232). -/
theorem bmStep_bmInt : (bmStep s).bmInt = (s.running || s.bmInt) := by
  cases hrun : s.running
  · rw [bmStep_not_running s hrun]
    rfl
  · rw [bmStep_of_running hrun, stepDone_bmInt]
    rfl

theorem bmStep_micro (h : s.micro = true) : (bmStep s).micro = true := by
  cases hrun : s.running
  · rwa [bmStep_not_running s hrun]
  · rw [bmStep_of_running hrun]
    exact (stepBranch_flags s).micro_of_set h

theorem bmStep_continueBlock (h : s.continueBlock = false) : (bmStep s).continueBlock = false := by
  cases hrun : s.running
  · rwa [bmStep_not_running s hrun]
  · rw [bmStep_of_running hrun]
    exact (stepBranch_flags s).block_of_clear h

end

/-- Settles O40: the frame is `bmStep_eq`, the bits follow from what a branch writes. -/
theorem stepChangesOnlySequencerState : Obligations.StepChangesOnlySequencerState := by
  intro s
  have hbit : ∀ n, n ∉ [param.stDataRq, param.stC2Xfer, param.stBmInt] →
      (bmStep s).cmdStatus.getLsbD n = s.cmdStatus.getLsbD n := fun n hn => by
    simp only [List.mem_cons, List.not_mem_nil, or_false, not_or] at hn
    obtain ⟨hdata, hc2, hint⟩ := hn
    exact bmStep_status_bit s hdata hc2 hint
  refine ⟨bmStep s, exec_step s, bmStep_eq s, hbit _ (by decide), hbit _ (by decide), hbit _ (by decide),
    hbit _ (by decide), hbit _ (by decide), fun hset => ?_, bmStep_micro s, bmStep_c2Xfer s, fun hint => ?_⟩
  · refine Bool.eq_true_of_not_eq_false fun hclear => ?_
    rw [bmStep_continueBlock s hclear] at hset
    cases hset
  · rw [bmStep_bmInt, hint, Bool.or_true]

end Sys2Proof.Machine

namespace Sys2Proof.Machine

open Sys2Proof.Spec

/-! ## Zones and runs of blocks (R259 to R263) -/

/-! The facts about the tables of R250 and R251 that the translator rests on, evaluated once. -/

theorem vzoneLba_row_length : ∀ type < 7, (param.vzoneLba.getD type []).length = 16 := by decide

theorem vzoneLba_last : ∀ type < 7, vzoneLba type 15 = Config.maxLba + 1 := by decide

theorem vzoneLba_le : ∀ type < 7, ∀ v < 16, vzoneLba type v ≤ Config.maxLba + 1 := by decide

/-- A block has as many bytes by its size index as by its physical zone (R250, R261, R262). -/
theorem secSizePhys_sizeIndex : ∀ pz : Fin 16, secSizePhys (sizeIndex pz) = secSize16 pz := by decide

theorem secSize16_le : ∀ pz : Fin 16, secSize16 pz ≤ 232 := by decide

section
variable {type lba : Nat} (htype : type < 7)
include htype

/-- The zone lookup is a search for the first boundary above the LBA (R259). -/
theorem lbaToVZone_eq_some_iff {v : Nat} : lbaToVZone type lba = some v ↔
    v < 16 ∧ lba < vzoneLba type v ∧ ∀ w, w < v → vzoneLba type w ≤ lba := by
  have hlength := vzoneLba_row_length type htype
  have hget : ∀ (w : Nat) (hw : w < (param.vzoneLba.getD type []).length),
      (param.vzoneLba.getD type [])[w] = vzoneLba type w := fun w hw => (List.getD_eq_getElem _ _ hw).symm
  simp only [lbaToVZone, List.findIdx?_eq_some_iff_getElem, hget, hlength, decide_eq_true_eq, not_lt]
  exact ⟨fun ⟨hv, hlt, hfirst⟩ => ⟨hv, hlt, hfirst⟩, fun ⟨hv, hlt, hfirst⟩ => ⟨hv, hlt, hfirst⟩⟩

/-- The last boundary is one past the last LBA, so that every LBA has a zone. -/
theorem exists_lbaToVZone (h : lba ≤ Config.maxLba) : ∃ v, lbaToVZone type lba = some v := by
  rw [← Option.isSome_iff_exists, lbaToVZone, List.findIdx?_isSome, List.any_eq_true]
  have hlast := vzoneLba_last type htype
  have hindex : 15 < (param.vzoneLba.getD type []).length := by rw [vzoneLba_row_length type htype]; decide
  have hget : vzoneLba type 15 = (param.vzoneLba.getD type [])[15] := List.getD_eq_getElem _ _ hindex
  exact ⟨vzoneLba type 15, hget ▸ List.getElem_mem hindex, decide_eq_true (by omega)⟩

theorem lbaToVZone_eq_none (h : Config.maxLba < lba) : lbaToVZone type lba = none := by
  refine Option.eq_none_iff_forall_ne_some.mpr fun v hv => ?_
  obtain ⟨hv16, hlt, -⟩ := (lbaToVZone_eq_some_iff htype).mp hv
  have := vzoneLba_le type htype v hv16
  omega

/-- An LBA below the boundary of its predecessor's zone lies in that zone. -/
theorem lbaToVZone_succ {v : Nat} (h : lbaToVZone type lba = some v) (hne : lba + 1 ≠ vzoneLba type v) :
    lbaToVZone type (lba + 1) = some v := by
  obtain ⟨hv, hlt, hfirst⟩ := (lbaToVZone_eq_some_iff htype).mp h
  exact (lbaToVZone_eq_some_iff htype).mpr ⟨hv, by omega, fun w hw => (hfirst w hw).trans (Nat.le_succ _)⟩

end

theorem vzoneBlockBytes_eq (type v : Nat) : vzoneBlockBytes type v = secSize16 (vzoneToPZone type v) * 85 := by
  rw [vzoneBlockBytes, secSizePhys_sizeIndex]
  rfl

theorem physBlockBytes_of_zone {type lba v : Nat} (h : lbaToVZone type lba = some v) :
    physBlockBytes type lba = vzoneBlockBytes type v := by
  rw [physBlockBytes, h]

/-- No block is larger than one of the system area's. -/
theorem physBlockBytes_le (type lba : Nat) : physBlockBytes type lba ≤ 19720 := by
  unfold physBlockBytes
  split
  · next v _ =>
    rw [vzoneBlockBytes_eq]
    have := secSize16_le (vzoneToPZone type v)
    omega
  · exact Nat.zero_le _

/-- What the loop of a run knows before an LBA: it is the first, or the zone and the block size held are those of
the LBA before it (R263). -/
def AtRun (type lba : Nat) (first : Bool) (vz bs : Nat) : Prop :=
  first = true ∨ ∃ prev, lba = prev + 1 ∧ lbaToVZone type prev = some vz ∧ bs = vzoneBlockBytes type vz

/-- After one block the loop knows what it needs for the next. -/
theorem atRun_succ {type lba v : Nat} (h : lbaToVZone type lba = some v) :
    AtRun type (lba + 1) false v (physBlockBytes type lba) :=
  .inr ⟨lba, rfl, h, physBlockBytes_of_zone h⟩

section
variable {type : Nat} (htype : type < 7)
include htype

/-- The loop uses the zone and the size of the LBA at hand, looked up or kept (R263). -/
theorem runZone_of_atRun {lba vz bs : Nat} {first : Bool} (hat : AtRun type lba first vz bs)
    (hlba : lba ≤ Config.maxLba) : ∃ v, lbaToVZone type lba = some v ∧
      runZone type lba first vz bs = some (v, physBlockBytes type lba) := by
  obtain ⟨v, hv⟩ := exists_lbaToVZone htype hlba
  rw [physBlockBytes_of_zone hv]
  refine ⟨v, hv, ?_⟩
  unfold runZone
  split
  · rw [hv, Option.map_some]
  · next hkeep =>
    simp only [Bool.or_eq_true, beq_iff_eq, not_or] at hkeep
    obtain ⟨hfirst, hboundary⟩ := hkeep
    obtain ⟨prev, rfl, hprev, rfl⟩ := hat.resolve_left hfirst
    have hsame : vz = v := Option.some.inj ((lbaToVZone_succ htype hprev hboundary).symm.trans hv)
    rw [hsame]

theorem lbaToByteLoop_eq_sum {n lba vz bs : Nat} {first : Bool} (total : Nat) (hat : AtRun type lba first vz bs)
    (hfits : lba + n ≤ Config.maxLba + 1) : lbaToByteLoop type n lba first vz bs total =
      total + ((List.range n).map fun k => physBlockBytes type (lba + k)).sum := by
  induction n generalizing lba first vz bs total with
  | zero => rfl
  | succ n ih =>
    obtain ⟨v, hv, hrun⟩ := runZone_of_atRun htype hat (by omega)
    simp only [lbaToByteLoop, hrun]
    rw [if_neg (by omega), ih _ (atRun_succ hv) (by omega), List.range_succ_eq_map]
    simp only [List.map_cons, List.map_map, List.sum_cons, Function.comp_def, Nat.succ_eq_add_one, Nat.add_zero,
      Nat.add_assoc, Nat.add_comm 1]

theorem lbaToByteLoop_overflows {n lba vz bs : Nat} {first : Bool} (total : Nat) (hat : AtRun type lba first vz bs)
    (hlba : lba ≤ Config.maxLba) (hover : Config.maxLba + 1 < lba + n) :
    lbaToByteLoop type n lba first vz bs total = Config.byteOverflow := by
  induction n generalizing lba first vz bs total with
  | zero => omega
  | succ n ih =>
    obtain ⟨v, hv, hrun⟩ := runZone_of_atRun htype hat hlba
    simp only [lbaToByteLoop, hrun]
    split
    · rfl
    · exact ih _ (atRun_succ hv) (by omega) (by omega)

/-- The sizes of the blocks of a run, summed (R263, D31). -/
theorem lbaToByte_eq_sum {start n : Nat} (hfits : start + n ≤ Config.maxLba + 1) :
    lbaToByte type start n = ((List.range n).map fun k => physBlockBytes type (start + k)).sum :=
  (lbaToByteLoop_eq_sum htype 0 (.inl rfl) hfits).trans (Nat.zero_add _)

theorem lbaToByte_overflows {start n : Nat} (hpos : 0 < n) (hover : Config.maxLba + 1 < start + n) :
    lbaToByte type start n = Config.byteOverflow := by
  by_cases hstart : start ≤ Config.maxLba
  · exact lbaToByteLoop_overflows htype 0 (.inl rfl) hstart hover
  · obtain ⟨m, rfl⟩ := Nat.exists_eq_succ_of_ne_zero hpos.ne'
    have hnone : runZone type start true 0 0 = none := by
      rw [runZone, lbaToVZone_eq_none htype (not_le.mp hstart)]
      rfl
    simp only [lbaToByte, lbaToByteLoop, hnone]

end

/-- Settles O43. -/
theorem zoneOfLbaIsTheFirstAboveIt : Obligations.ZoneOfLbaIsTheFirstAboveIt := by
  refine fun type lba htype => ⟨fun hlba => ?_, lbaToVZone_eq_none htype⟩
  obtain ⟨v, hv⟩ := exists_lbaToVZone htype hlba
  obtain ⟨hv16, hlt, hfirst⟩ := (lbaToVZone_eq_some_iff htype).mp hv
  exact ⟨v, hv16, hv, hlt, hfirst⟩

/-- Settles O44. -/
theorem runSizeIsTheSumOfItsBlocks : Obligations.RunSizeIsTheSumOfItsBlocks := fun _ _ _ htype =>
  ⟨lbaToByte_eq_sum htype, lbaToByte_overflows htype, rfl,
    fun _ v hv => (physBlockBytes_of_zone hv).trans (vzoneBlockBytes_eq _ v)⟩

end Sys2Proof.Machine

namespace Sys2Proof.Machine

open Sys2Proof.Spec

/-! ## The reverse lookup in a built table (R271, R272) -/

/-- A coordinate that is found is the one of the LBA that is answered. -/
theorem physToLba_buildTable_found {d : Disk} {c : BitVec 16} (h : physToLba (buildTable d) c ≠ Config.lbaNotFound) :
    physToLba (buildTable d) c ≤ Config.maxLba ∧
      lbaToPhys d.type d.defects (physToLba (buildTable d) c) = c := by
  unfold physToLba at h ⊢
  cases hfind : (buildTable d).findIdx? (· == c) with
  | none => rw [hfind] at h; exact absurd rfl h
  | some l =>
    obtain ⟨hl, hentry, -⟩ := List.findIdx?_eq_some_iff_getElem.mp hfind
    have hle : l ≤ Config.maxLba := Nat.lt_succ_iff.mp (hl.trans_eq (buildTable_length d))
    have hget := (List.getElem?_eq_getElem hl).symm.trans (buildTable_getElem? d hle)
    rw [Option.getD_some]
    exact ⟨hle, (Option.some.inj hget).symm.trans (beq_iff_eq.mp hentry)⟩

/-- An LBA whose coordinate no earlier LBA has is the one the lookup answers. -/
theorem physToLba_buildTable_of_first {d : Disk} {l : Nat} (hl : l ≤ Config.maxLba)
    (hfirst : ∀ j, j < l → lbaToPhys d.type d.defects j ≠ lbaToPhys d.type d.defects l) :
    physToLba (buildTable d) (lbaToPhys d.type d.defects l) = l := by
  refine physToLba_of_first (buildTable_getElem? d hl) fun j hj hentry => ?_
  rw [buildTable_getElem? d (hj.le.trans hl)] at hentry
  exact hfirst j hj (Option.some.inj hentry)

/-- Settles O47: each direction of the equivalence is about the same two LBAs, of which the lookup answers one. -/
theorem roundTripIffCoordinatesDiffer : Obligations.RoundTripIffCoordinatesDiffer := by
  refine fun d => ⟨⟨fun hround l m hl hm hne hsame => hne ?_, fun hinj l hl => ?_⟩,
    fun c hfound => (physToLba_buildTable_found hfound).2⟩
  · rw [← hround l hl, hsame, hround m hm]
  · exact physToLba_buildTable_of_first hl fun j hj => hinj j l (hj.le.trans hl) hl hj.ne

/-! ## The seek on an `LBA` image (R256) -/

/-- Bits put above the k low ones are added at their weight. -/
theorem or_shiftLeft_eq_add {a k : Nat} (b : Nat) (h : a < 2 ^ k) : a ||| (b <<< k) = a + b * 2 ^ k := by
  rw [Nat.lor_comm, ← Nat.shiftLeft_add_eq_or_of_lt h, Nat.shiftLeft_eq, Nat.add_comm]

/-- The track field of a coordinate (R115). -/
theorem and_trackMask (n : Nat) : n &&& 0xFFF = n % 2 ^ 12 := Nat.and_two_pow_sub_one_eq_mod n 12

/-- The track and head fields of the current-track word, packed, are its low 13 bits (R24, R115). -/
theorem packPhys_curTk (tk : Word) (block : Nat) :
    packPhys (tk.toNat &&& 0xFFF) (if tk.getLsbD 12 then 1 else 0) block =
      BitVec.ofNat 16 ((tk.toNat &&& 0x1FFF) ||| (block <<< 13)) := by
  have hfields :
      (tk.toNat &&& 0xFFF &&& 0xFFF) ||| ((if tk.getLsbD 12 then 1 else 0) <<< 12) = tk.toNat &&& 0x1FFF := by
    have hlow : tk.toNat &&& 0x1FFF = tk.toNat % 2 ^ 13 := Nat.and_two_pow_sub_one_eq_mod _ 13
    have hbit : tk.getLsbD 12 = decide (tk.toNat / 2 ^ 12 % 2 = 1) := Nat.testBit_eq_decide_div_mod_eq
    rw [hlow, and_trackMask, and_trackMask, Nat.mod_mod, or_shiftLeft_eq_add _ (Nat.mod_lt _ (by decide)), hbit]
    by_cases h : tk.toNat / 2 ^ 12 % 2 = 1
    · rw [if_pos (decide_eq_true h)]
      omega
    · rw [if_neg (by simpa using h)]
      omega
  change BitVec.ofNat 16 ((tk.toNat &&& 0xFFF &&& 0xFFF) ||| ((if tk.getLsbD 12 then 1 else 0) <<< 12) |||
    (block <<< 13)) = _
  rw [hfields]

/-- The coordinate that the seek looks up (R256). -/
theorem seekCoord_eq (tk : Word) (block : Nat) :
    seekCoord tk block = BitVec.ofNat 16 ((tk.toNat &&& 0x1FFF) ||| (block <<< 13)) := by
  rw [← packPhys_curTk]
  exact congrArg (packPhys · _ block) (BitVec.toNat_and tk 0xFFF)

/-- The blocks before an LBA fill far fewer bytes than the sentinel says. -/
theorem sum_physBlockBytes_lt (type : Nat) {lba : Nat} (h : lba ≤ Config.maxLba) :
    ((List.range lba).map (physBlockBytes type)).sum < Config.byteOverflow := by
  have hsum := List.sum_le_card_nsmul ((List.range lba).map (physBlockBytes type)) 19720 (by
    simp only [List.forall_mem_map]
    exact fun l _ => physBlockBytes_le type l)
  have hmax : Config.maxLba = 4315 := rfl
  have hover : Config.byteOverflow = 4294967295 := rfl
  simp only [List.length_map, List.length_range, smul_eq_mul] at hsum
  omega

section
variable {type lba e : Nat} {table : List (BitVec 16)} {tk : Word} {block : Nat}

theorem lbaSeek_of_not_found (h : physToLba table (seekCoord tk block) = Config.lbaNotFound) :
    lbaSeek type table tk block e = .unresolved (seekCoord tk block) := if_pos h

theorem lbaSeek_of_found {v : Nat} (hlba : physToLba table (seekCoord tk block) = lba)
    (hfound : lba ≠ Config.lbaNotFound) (hzone : lbaToVZone type lba = some v)
    (hbytes : lbaToByte type 0 lba ≠ Config.byteOverflow) : lbaSeek type table tk block e =
      .found (vzoneToPZone type v) (lbaToByte type 0 lba + e * secSize16 (vzoneToPZone type v))
        (decide (lba < 24)) := by
  have hfirst : param.imgLba0Offset + lbaToByte type 0 lba = lbaToByte type 0 lba := Nat.zero_add _
  simp only [lbaSeek, hlba, if_neg hfound, hzone, if_neg hbytes, hfirst]
  rfl

end

/-- Settles O42. -/
theorem lbaSeekAddsEarlierBlocks : Obligations.LbaSeekAddsEarlierBlocks := by
  intro d tk block e hformat htype coord
  refine ⟨packPhys_curTk tk block, ?_⟩
  intro lba
  have hresolve : resolve d (buildTable d) tk block e = lbaSeek d.type (buildTable d) tk block e := by
    rw [resolve, hformat]
  have hcoord : physToLba (buildTable d) (seekCoord tk block) = lba := by rw [seekCoord_eq]
  rw [hresolve]
  refine ⟨fun hmissing => ?_, fun hfound => ?_⟩
  · rw [lbaSeek_of_not_found (hcoord.trans hmissing), seekCoord_eq]
  · have hle : lba ≤ Config.maxLba := (physToLba_buildTable_found hfound).1
    have hbytes : lbaToByte d.type 0 lba = ((List.range lba).map (physBlockBytes d.type)).sum := by
      rw [lbaToByte_eq_sum htype (by omega)]
      simp only [Nat.zero_add]
    obtain ⟨v, hv⟩ := exists_lbaToVZone htype hle
    rw [← hbytes]
    exact ⟨v, hv, lbaSeek_of_found hcoord hfound hv (hbytes ▸ (sum_physBlockBytes_lt d.type hle).ne)⟩

/-! ## The seek on a `FLAT` image (R255) -/

/-- A scan that keeps the last index whose value is at or below a bound answers the largest such index. -/
theorem foldl_last_le (f : Nat → Nat) (bound : Nat) (h0 : f 0 ≤ bound) (n : Nat) :
    let best := (List.range n).foldl (fun best z => if f z ≤ bound then z else best) 0
    best ≤ n - 1 ∧ f best ≤ bound ∧ ∀ z, z < n → f z ≤ bound → z ≤ best := by
  induction n with
  | zero => exact ⟨le_rfl, h0, fun z hz => absurd hz (Nat.not_lt_zero z)⟩
  | succ n ih =>
    obtain ⟨hle, hbest, hmax⟩ := ih
    simp only [List.range_succ, List.foldl_append, List.foldl_cons, List.foldl_nil]
    split
    · next hn => exact ⟨by omega, hn, fun z hz _ => by omega⟩
    · next hn =>
      refine ⟨by omega, hbest, fun z hz hfz => hmax z ?_ hfz⟩
      have : z ≠ n := fun h => hn (h ▸ hfz)
      omega

/-- The zone in head is the last that starts at or below the track (R255). -/
theorem zoneInHead_spec (track : Nat) : zoneInHead track ≤ 7 ∧ trackBase (zoneInHead track) ≤ track ∧
    ∀ z, z ≤ 7 → trackBase z ≤ track → z ≤ zoneInHead track := by
  obtain ⟨hle, hbest, hmax⟩ := foldl_last_le trackBase track (Nat.zero_le track) 8
  exact ⟨hle, hbest, fun z hz => hmax z (by omega)⟩

/-- One past the last track that a zone in head can hold: the start of the next zone, or the end of the 12-bit
track field (R24, R252). -/
def trackEnd (z : Nat) : Nat := if z = 7 then 0x1000 else trackBase (z + 1)

theorem track_lt_trackEnd {track : Nat} (h : track < 0x1000) : track < trackEnd (zoneInHead track) := by
  obtain ⟨hle, -, hmax⟩ := zoneInHead_spec track
  unfold trackEnd
  split
  · exact h
  · refine not_le.mp fun hnext => ?_
    have := hmax _ (by omega) hnext
    omega

/-- The last sector of the last track of every zone of a flat image lies below 2^27 (R252, D24). -/
theorem flat_last_offset_lt : ∀ z < 8, ∀ zone : Fin 16, zone.val % 8 = z →
    flatStartOffset zone + (trackEnd z - 1 - trackBase z) * (secSize16 zone * 170) + secSize16 zone * 85
      + 84 * secSize16 zone < 2 ^ 27 := by decide

/-- What the flat seek resolves, each factor of the offset as a number of bytes (R255). -/
theorem flatSeek_eq (tk : Word) (block e : Nat) : flatSeek tk block e =
    let zone := Fin.ofNat 16 (zoneInHead (tkTrack tk) + 8 * tkHead tk)
    .found zone
      (flatStartOffset zone + (tkTrack tk - trackBase (zoneInHead (tkTrack tk))) * (secSize16 zone * 170)
        + block * (secSize16 zone * 85) + e * secSize16 zone)
      (decide (tkHead tk = 0 ∧ tkTrack tk < 12)) := by
  unfold flatSeek
  simp only [Nat.mul_assoc]
  rfl

/-- Settles O41. -/
theorem flatSeekFindsZoneAndOffset : Obligations.FlatSeekFindsZoneAndOffset := by
  intro d table tk block e hformat hblock he track head
  have htrack : track < 0x1000 := by
    simp only [track, BitVec.toNat_and]
    exact Nat.lt_of_le_of_lt Nat.and_le_right (by decide)
  have hhead : head ≤ 1 := by
    simp only [head]
    split <;> decide
  obtain ⟨hz, hbase, hmax⟩ := zoneInHead_spec track
  have hend := track_lt_trackEnd htrack
  refine ⟨zoneInHead track, hz, hbase, hmax, Fin.ofNat 16 (zoneInHead track + 8 * head), ?_, _, ?_, rfl, ?_⟩
  · exact Nat.mod_eq_of_lt (by omega)
  · rw [resolve, hformat]
    exact flatSeek_eq tk block e
  · generalize hzone : Fin.ofNat 16 (zoneInHead track + 8 * head) = zone
    have hlast := flat_last_offset_lt (zoneInHead track) (by omega) zone (by
      rw [← hzone, Fin.val_ofNat]
      omega)
    have hspan : (track - trackBase (zoneInHead track)) * (secSize16 zone * 170) ≤
      (trackEnd (zoneInHead track) - 1 - trackBase (zoneInHead track)) * (secSize16 zone * 170) :=
      Nat.mul_le_mul_right _ (by omega)
    have hparity : block * (secSize16 zone * 85) ≤ 1 * (secSize16 zone * 85) := Nat.mul_le_mul_right _ hblock
    have hsector : e * secSize16 zone ≤ 84 * secSize16 zone := Nat.mul_le_mul_right _ he
    omega

end Sys2Proof.Machine

namespace Sys2Proof.Machine

open Sys2Proof.Spec

/-! ## Defect compensation (R265 to R268) -/

/-- The walk consumes k entries: each of them was at or below the track as corrected so far, and the next, if there
is one, is above it (R268). -/
theorem skipDefects_spec (base : Nat) (ds : List Nat) (track : Nat) :
    ∃ k, k ≤ ds.length ∧ skipDefects base ds track = track + k ∧
      (∀ j, j < k → ds.getD j 0 + base ≤ track + j) ∧ (k < ds.length → track + k < ds.getD k 0 + base) := by
  induction ds generalizing track with
  | nil => exact ⟨0, le_rfl, rfl, fun j hj => absurd hj (Nat.not_lt_zero j), fun h => absurd h (Nat.lt_irrefl 0)⟩
  | cons d ds ih =>
    unfold skipDefects
    split
    · next hd =>
      obtain ⟨k, hk, hskip, hconsumed, hnext⟩ := ih (track + 1)
      refine ⟨k + 1, Nat.succ_le_succ hk, by rw [hskip]; omega, fun j hj => ?_, fun hlt => ?_⟩
      · cases j with
        | zero => exact hd
        | succ j =>
          have := hconsumed j (by omega)
          rw [List.getD_cons_succ]
          omega
      · have := hnext (Nat.lt_of_succ_lt_succ hlt)
        rw [List.getD_cons_succ]
        omega
    · next hd =>
      refine ⟨0, Nat.zero_le _, rfl, fun j hj => absurd hj (Nat.not_lt_zero j), fun _ => ?_⟩
      rw [List.getD_cons_zero]
      omega

theorem le_skipDefects (base : Nat) (ds : List Nat) (track : Nat) : track ≤ skipDefects base ds track := by
  obtain ⟨k, -, hskip, -⟩ := skipDefects_spec base ds track
  omega

theorem skipDefects_le (base : Nat) (ds : List Nat) (track : Nat) :
    skipDefects base ds track ≤ track + ds.length := by
  obtain ⟨k, hk, hskip, -⟩ := skipDefects_spec base ds track
  omega

/-- Whatever the list, compensation keeps tracks in their order: an entry that the lower track passes, the higher
one passes too. -/
theorem skipDefects_strictMono (base : Nat) (ds : List Nat) : StrictMono (skipDefects base ds) := by
  intro t t' hlt
  induction ds generalizing t t' with
  | nil => exact hlt
  | cons d ds ih =>
    by_cases hd : d + base ≤ t
    · simp only [skipDefects, if_pos hd, if_pos (hd.trans hlt.le)]
      exact ih (Nat.succ_lt_succ hlt)
    · have hstay : skipDefects base (d :: ds) t = t := if_neg hd
      rw [hstay]
      exact hlt.trans_le (le_skipDefects base (d :: ds) t')

/-- The head of a physical zone, and the direction its tracks are counted in, by the zone number (R261, R267). -/
theorem headOf_eq (pz : Fin 16) : headOf pz = if pz.val ≤ 7 then 0 else 1 := by
  unfold headOf
  split_ifs <;> omega

theorem nominalTrack_eq (pz : Fin 16) (rel : Nat) :
    nominalTrack pz rel = if pz.val ≤ 7 then trackStart pz + rel else trackStart pz - rel := by
  rw [nominalTrack, headOf_eq]
  by_cases h : pz.val ≤ 7
  · rw [if_pos h, if_pos h, if_pos rfl]
  · rw [if_neg h, if_neg h, if_neg Nat.one_ne_zero]

/-- Settles O45. -/
theorem defectiveTracksAreSkipped : Obligations.DefectiveTracksAreSkipped := by
  intro type lba defects pz rel base nominal
  obtain ⟨k, hk, hskip, hconsumed, hnext⟩ := skipDefects_spec base (defects.get pz) nominal
  refine ⟨k, hk, ?_, hconsumed, hnext⟩
  have hphys : lbaToPhys type defects lba = packPhys (skipDefects base (defects.get pz) (nominalTrack pz rel))
    (headOf pz) (blockOf lba) := rfl
  rw [hphys, nominalTrack_eq, headOf_eq, hskip]
  rfl

/-! ## The round trip on well-formed defect lists (R269, R273)

Different LBAs have different coordinates: two zones of a head keep disjoint tracks even after 12 corrections each,
compensation keeps the tracks of one zone apart, and the two blocks of a track differ in their parity bit. -/

/-- A packed coordinate by its fields (R115). -/
theorem packPhys_toNat {track head block : Nat} (ht : track < 0x1000) (hh : head ≤ 1) (hb : block ≤ 1) :
    (packPhys track head block).toNat = track + head * 2 ^ 12 + block * 2 ^ 13 := by
  have hlt : track + head * 2 ^ 12 < 2 ^ 13 := by omega
  change (BitVec.ofNat 16 (track &&& 0xFFF ||| head <<< 12 ||| block <<< 13)).toNat = _
  rw [and_trackMask, Nat.mod_eq_of_lt (show track < 2 ^ 12 from ht), or_shiftLeft_eq_add head ht,
    or_shiftLeft_eq_add block hlt, BitVec.toNat_ofNat, Nat.mod_eq_of_lt (by omega)]

theorem packPhys_inj {t t' h h' b b' : Nat} (ht : t < 0x1000) (ht' : t' < 0x1000) (hh : h ≤ 1) (hh' : h' ≤ 1)
    (hb : b ≤ 1) (hb' : b' ≤ 1) (e : packPhys t h b = packPhys t' h' b') : t = t' ∧ h = h' ∧ b = b' := by
  have hnat := congrArg BitVec.toNat e
  rw [packPhys_toNat ht hh hb, packPhys_toNat ht' hh' hb'] at hnat
  omega

/-- The tracks of a virtual zone before compensation: half its blocks (R266). -/
def vzoneTracks (type v : Nat) : Nat := (vzoneLba type v - zoneStartLba type v) / 2

/-! The facts about the tables that keep the zones apart, evaluated once. -/

/-- Every zone starts and ends between two tracks. -/
theorem vzone_even : ∀ type < 7, ∀ v < 16, zoneStartLba type v % 2 = 0 ∧ vzoneLba type v % 2 = 0 := by decide

/-- Counted up from the start or down to it, a zone begins at the base of its zone in head, and twelve more tracks than
it has fit before the next zone. -/
theorem vzone_fits : ∀ type < 7, ∀ v < 16,
    let pz := vzoneToPZone type v
    let z := pz.val % 8
    (if pz.val ≤ 7 then trackStart pz = trackBase z else trackStart pz + 1 = trackBase z + vzoneTracks type v) ∧
      trackBase z + vzoneTracks type v + 12 ≤ trackEnd z := by decide

/-- No two virtual zones of a type are the same physical zone. -/
theorem vzoneToPZone_inj : ∀ type < 7, ∀ v < 16, ∀ w < 16, vzoneToPZone type v = vzoneToPZone type w → v = w := by
  decide

/-- The zones of a head follow each other (R252). -/
theorem trackEnd_le_trackBase : ∀ z' < 8, ∀ z < z', trackEnd z ≤ trackBase z' := by decide

theorem trackEnd_le : ∀ z < 8, trackEnd z ≤ 0x1000 := by decide

section
variable {type lba v : Nat} (htype : type < 7) (hv : lbaToVZone type lba = some v)
include htype hv

/-- The LBA's place in its zone: the track counted from the zone's start lies in the zone. -/
theorem zoneStartLba_le : zoneStartLba type v ≤ lba := by
  obtain ⟨-, -, hfirst⟩ := (lbaToVZone_eq_some_iff htype).mp hv
  unfold zoneStartLba
  split
  · exact Nat.zero_le _
  · exact hfirst _ (by omega)

theorem relTrack_lt : (lba - zoneStartLba type v) / 2 < vzoneTracks type v := by
  obtain ⟨hv16, hlt, -⟩ := (lbaToVZone_eq_some_iff htype).mp hv
  obtain ⟨hstart, hend⟩ := vzone_even type htype v hv16
  have := zoneStartLba_le htype hv
  unfold vzoneTracks
  omega

end

/-- The track of an LBA, compensated (R265 to R268). -/
def physTrack (type : Nat) (defects : Vector (List Nat) 16) (lba v : Nat) : Nat :=
  let pz := vzoneToPZone type v
  skipDefects (trackBase (pz.val % 8)) (defects.get pz) (nominalTrack pz ((lba - zoneStartLba type v) / 2))

theorem lbaToPhys_eq {type lba v : Nat} (defects : Vector (List Nat) 16) (hv : lbaToVZone type lba = some v) :
    lbaToPhys type defects lba =
      packPhys (physTrack type defects lba v) (headOf (vzoneToPZone type v)) (blockOf lba) := by
  rw [lbaToPhys, hv]
  rfl

section
variable {type : Nat} (htype : type < 7)
include htype

/-- Before compensation a zone's tracks leave room for twelve more below the next zone. -/
theorem nominalTrack_bounds {lba v : Nat} (hv : lbaToVZone type lba = some v) :
    let pz := vzoneToPZone type v
    let nominal := nominalTrack pz ((lba - zoneStartLba type v) / 2)
    trackBase (pz.val % 8) ≤ nominal ∧ nominal + 12 < trackEnd (pz.val % 8) := by
  dsimp only
  obtain ⟨hv16, -, -⟩ := (lbaToVZone_eq_some_iff htype).mp hv
  obtain ⟨hstart, hfits⟩ := vzone_fits type htype v hv16
  have hrel := relTrack_lt htype hv
  rw [nominalTrack_eq]
  split_ifs at hstart ⊢ <;> omega

/-- Two LBAs of one zone on one track are the two blocks of it. -/
theorem rel_eq_of_physTrack_eq {defects : Vector (List Nat) 16} {l m v : Nat}
    (hl : lbaToVZone type l = some v) (hm : lbaToVZone type m = some v)
    (h : physTrack type defects l v = physTrack type defects m v) :
    (l - zoneStartLba type v) / 2 = (m - zoneStartLba type v) / 2 := by
  have hnominal := (skipDefects_strictMono _ _).injective h
  obtain ⟨hv16, -, -⟩ := (lbaToVZone_eq_some_iff htype).mp hl
  obtain ⟨hstart, -⟩ := vzone_fits type htype v hv16
  have hrl := relTrack_lt htype hl
  have hrm := relTrack_lt htype hm
  rw [nominalTrack_eq, nominalTrack_eq] at hnominal
  split_ifs at hstart hnominal <;> omega

/-- The two LBAs of a track differ in their block parity (R266). -/
theorem eq_of_blockOf_eq {l m v : Nat} (hl : lbaToVZone type l = some v) (hm : lbaToVZone type m = some v)
    (hrel : (l - zoneStartLba type v) / 2 = (m - zoneStartLba type v) / 2) (hblock : blockOf l = blockOf m) :
    l = m := by
  obtain ⟨hv16, -, -⟩ := (lbaToVZone_eq_some_iff htype).mp hl
  obtain ⟨heven, -⟩ := vzone_even type htype v hv16
  have hsl := zoneStartLba_le htype hl
  have hsm := zoneStartLba_le htype hm
  unfold blockOf at hblock
  split_ifs at hblock <;> omega

variable {defects : Vector (List Nat) 16} (hdefects : ∀ pz : Fin 16, (defects.get pz).length ≤ 12)
include hdefects

/-- With at most 12 defects a zone keeps its tracks between its base and the next zone's. -/
theorem physTrack_bounds {lba v : Nat} (hv : lbaToVZone type lba = some v) :
    trackBase ((vzoneToPZone type v).val % 8) ≤ physTrack type defects lba v ∧
      physTrack type defects lba v < trackEnd ((vzoneToPZone type v).val % 8) := by
  obtain ⟨hlower, hupper⟩ := nominalTrack_bounds htype hv
  have hlength := hdefects (vzoneToPZone type v)
  exact ⟨hlower.trans (le_skipDefects _ _ _), (skipDefects_le _ _ _).trans_lt (by omega)⟩

/-- Different LBAs have different coordinates. -/
theorem lbaToPhys_injOn {l m : Nat} (hl : l ≤ Config.maxLba) (hm : m ≤ Config.maxLba)
    (h : lbaToPhys type defects l = lbaToPhys type defects m) : l = m := by
  obtain ⟨v, hv⟩ := exists_lbaToVZone htype hl
  obtain ⟨w, hw⟩ := exists_lbaToVZone htype hm
  obtain ⟨hv16, -, -⟩ := (lbaToVZone_eq_some_iff htype).mp hv
  obtain ⟨hw16, -, -⟩ := (lbaToVZone_eq_some_iff htype).mp hw
  obtain ⟨hvlo, hvhi⟩ := physTrack_bounds htype hdefects hv
  obtain ⟨hwlo, hwhi⟩ := physTrack_bounds htype hdefects hw
  have hve := trackEnd_le ((vzoneToPZone type v).val % 8) (Nat.mod_lt _ (by decide))
  have hwe := trackEnd_le ((vzoneToPZone type w).val % 8) (Nat.mod_lt _ (by decide))
  rw [lbaToPhys_eq defects hv, lbaToPhys_eq defects hw] at h
  obtain ⟨htrack, hhead, hblock⟩ := packPhys_inj (by omega) (by omega) (headOf_le _) (headOf_le _)
    (blockOf_le _) (blockOf_le _) h
  have hzih : (vzoneToPZone type v).val % 8 = (vzoneToPZone type w).val % 8 := by
    rcases Nat.lt_trichotomy ((vzoneToPZone type v).val % 8) ((vzoneToPZone type w).val % 8) with hlt | heq | hgt
    · have := trackEnd_le_trackBase _ (Nat.mod_lt _ (by decide)) _ hlt
      omega
    · exact heq
    · have := trackEnd_le_trackBase _ (Nat.mod_lt _ (by decide)) _ hgt
      omega
  have hpz : vzoneToPZone type v = vzoneToPZone type w := by
    rw [headOf_eq, headOf_eq] at hhead
    split_ifs at hhead <;> omega
  obtain rfl := vzoneToPZone_inj type htype v hv16 w hw16 hpz
  exact eq_of_blockOf_eq htype hv hw (rel_eq_of_physTrack_eq htype hv hw htrack) hblock

end

/-- Settles O48. That the lists are ascending is not needed: compensation keeps the order of the tracks along any
list. -/
theorem roundTripOnWellFormedDefects : Obligations.RoundTripOnWellFormedDefects := fun _ htype hdefects _ hl =>
  physToLba_buildTable_of_first hl fun _ hj hsame =>
    hj.ne (lbaToPhys_injOn htype (fun pz => (hdefects pz).1) (hj.le.trans hl) hl hsame)

end Sys2Proof.Machine

namespace Sys2Proof.Machine

open Sys2Proof.Spec

/-! ## The port events (R290 to R303, R360) -/

section
variable (s : State) (cart : Word) (dram length : Nat)

@[simp] theorem exec_detach : exec .detach s = .next { s with disk := none } := rfl

@[simp] theorem exec_attach (d : Disk) : exec (.attach d) s =
    .next { s with disk := some d, lbaPhysTable := tableFor d s.lbaPhysTable, sysDataWritten := false } := rfl

@[simp] theorem exec_powerOn : exec .powerOn s = .next (powerOnState s).updateIrqLine := rfl

variable {s cart}

/-! The completion signal and the two transfers, range by range (R83, R290 to R293). -/

theorem exec_cartAddr_c2 (h : dmaRange s.rom.size cart = .c2) : exec (.cartAddr cart) s =
    .next (((s.putStatus param.stC2Xfer false).putStatus param.stBmErr false).clrIrq .bm) := by
  change execCartAddr cart s = _
  rw [execCartAddr, h]

theorem exec_cartAddr_ds (h : dmaRange s.rom.size cart = .ds) : exec (.cartAddr cart) s =
    .next (((s.putStatus param.stDataRq false).putStatus param.stBmErr false).clrIrq .bm) := by
  change execCartAddr cart s = _
  rw [execCartAddr, h]

theorem exec_cartAddr_else (hc : dmaRange s.rom.size cart ≠ .c2) (hd : dmaRange s.rom.size cart ≠ .ds) :
    exec (.cartAddr cart) s = .next s := by
  change execCartAddr cart s = _
  rw [execCartAddr]
  cases h : dmaRange s.rom.size cart
  case c2 => exact absurd h hc
  case ds => exact absurd h hd
  all_goals rfl

theorem exec_dmaToHost_c2 (h : dmaRange s.rom.size cart = .c2) : exec (.dmaToHost cart dram length) s =
    .next (((s.storeToHost dram (fun i => Memory.read s.c2Buf (c2Index cart i)) length).invalidateCode dram
      length).returnCost length) := by
  change execDmaToHost cart dram length s = _
  rw [execDmaToHost, h]

theorem exec_dmaToHost_ds (h : dmaRange s.rom.size cart = .ds) : exec (.dmaToHost cart dram length) s =
    .next (((s.storeToHost dram (fun i => Memory.read s.dsBuf (dsIndex cart i)) length).invalidateCode dram
      length).returnCost length) := by
  change execDmaToHost cart dram length s = _
  rw [execDmaToHost, h]

theorem exec_dmaToHost_rom (h : dmaRange s.rom.size cart = .rom) : exec (.dmaToHost cart dram length) s =
    .next (((s.storeToHost dram (fun i => Memory.read s.rom.data (romIndex cart i))
      (romBytes s cart length)).invalidateCode dram length).returnCost length) := by
  change execDmaToHost cart dram length s = _
  rw [execDmaToHost, h]

theorem exec_dmaToHost_nothing (h : dmaRange s.rom.size cart = .nothing) : exec (.dmaToHost cart dram length) s =
    .next ((s.diag .dmaRange cart).returnCost length) := by
  change execDmaToHost cart dram length s = _
  rw [execDmaToHost, h]

theorem exec_dmaFromHost_c2 (h : dmaRange s.rom.size cart = .c2) : exec (.dmaFromHost cart dram length) s =
    .next { s with
      c2Buf := Memory.writeBytes s.c2Buf (c2Index cart) (fun i => Memory.read s.hostMem (hostIndex dram i)) length
      dmaCost := some (transferCost length) } := by
  change execDmaFromHost cart dram length s = _
  rw [execDmaFromHost, h]
  rfl

theorem exec_dmaFromHost_ds (h : dmaRange s.rom.size cart = .ds) : exec (.dmaFromHost cart dram length) s =
    .next { s with
      dsBuf := Memory.writeBytes s.dsBuf (dsIndex cart) (fun i => Memory.read s.hostMem (hostIndex dram i)) length
      dmaCost := some (transferCost length) } := by
  change execDmaFromHost cart dram length s = _
  rw [execDmaFromHost, h]
  rfl

theorem exec_dmaFromHost_rom (h : dmaRange s.rom.size cart = .rom) : exec (.dmaFromHost cart dram length) s =
    .next ((s.diag .dmaRomWrite cart).returnCost length) := by
  change execDmaFromHost cart dram length s = _
  rw [execDmaFromHost, h]

theorem exec_dmaFromHost_nothing (h : dmaRange s.rom.size cart = .nothing) :
    exec (.dmaFromHost cart dram length) s = .next ((s.diag .dmaRange cart).returnCost length) := by
  change execDmaFromHost cart dram length s = _
  rw [execDmaFromHost, h]

end

/-- The last of the bytes that arrive at one index stays (R292). -/
theorem bytesArrived_writeBytes {m : Memory} (h : Memory.wf m = true) (dst : Nat → Nat) (n : Nat)
    (src : Nat → Byte) : bytesArrived m (Memory.writeBytes m dst src n) dst n src :=
  ⟨fun i hi hlast => Memory.read_writeBytes_at h dst src n i hi fun j hj hij => hlast j hij hj,
    fun a hne => Memory.read_writeBytes_of_ne h dst src n a hne⟩

/-- Settles O49: acknowledging the block-transfer interrupt is `clrIrq_bm_eq_bmAcknowledged`. -/
theorem cartAddressClearsItsBuffer : Obligations.CartAddressClearsItsBuffer := by
  intro a s
  split_ifs with hc hd
  · rw [exec_cartAddr_c2 (dmaRange_of_c2 _ hc), clrIrq_bm_eq_bmAcknowledged]
    rfl
  · rw [exec_cartAddr_ds (dmaRange_of_ds _ hd), clrIrq_bm_eq_bmAcknowledged]
    rfl
  · by_cases hr : 0x06000000 ≤ a.toNat ∧ a.toNat < 0x06000000 + s.rom.size
    · exact exec_cartAddr_else (by rw [dmaRange_of_rom _ hr]; decide) (by rw [dmaRange_of_rom _ hr]; decide)
    · exact exec_cartAddr_else (by rw [dmaRange_of_nothing _ hc hd hr]; decide)
        (by rw [dmaRange_of_nothing _ hc hd hr]; decide)

/-- Settles O50. -/
theorem transferToHostCopiesTheBuffer : Obligations.TransferToHostCopiesTheBuffer := by
  refine ⟨⟨_, _, Nat.succ_pos _, transferCost_bounds⟩, ?_⟩
  intro cart dram length s copied
  have hcopied : ∀ (n : Nat) (src : Nat → Byte), exec (.dmaToHost cart dram length) s =
      .next (((s.storeToHost dram src n).invalidateCode dram length).returnCost length) → copied n src :=
    fun n src hexec => ⟨_, hexec, fun hwf =>
      ⟨Memory.wf_writeBytes hwf _ _ _, fun a => read_storeToHost hwf dram src n a⟩⟩
  split_ifs with hc hd hr
  · apply hcopied
    rw [exec_dmaToHost_c2 dram length (dmaRange_of_c2 _ hc), c2Index_eq]
  · apply hcopied
    rw [exec_dmaToHost_ds dram length (dmaRange_of_ds _ hd), dsIndex_eq]
  · apply hcopied
    rw [exec_dmaToHost_rom dram length (dmaRange_of_rom _ hr), romIndex_eq, romBytes_eq]
  · exact exec_dmaToHost_nothing dram length (dmaRange_of_nothing _ hc hd hr)

/-- Settles O51. -/
theorem transferFromHostFillsTheBuffer : Obligations.TransferFromHostFillsTheBuffer := by
  intro cart dram length s src cost
  have hsrc : (fun i => Memory.read s.hostMem (hostIndex dram i)) = src := by rw [hostIndex_eq]
  split_ifs with hc hd hr
  · refine ⟨_, exec_dmaFromHost_c2 dram length (dmaRange_of_c2 _ hc), fun hwf => ⟨Memory.wf_writeBytes hwf _ _ _, ?_⟩⟩
    rw [hsrc, c2Index_eq]
    exact bytesArrived_writeBytes hwf _ _ _
  · refine ⟨_, exec_dmaFromHost_ds dram length (dmaRange_of_ds _ hd), fun hwf => ⟨Memory.wf_writeBytes hwf _ _ _, ?_⟩⟩
    rw [hsrc, dsIndex_eq]
    exact bytesArrived_writeBytes hwf _ _ _
  · exact exec_dmaFromHost_rom dram length (dmaRange_of_rom _ hr)
  · exact exec_dmaFromHost_nothing dram length (dmaRange_of_nothing _ hc hd hr)

/-- Settles O52. -/
theorem attachBuildsTheTable : Obligations.AttachBuildsTheTable := by
  refine fun d s => ⟨exec_detach s, _, exec_attach s d, fun hformat => if_neg hformat, fun hformat => ?_⟩
  have htable : tableFor d s.lbaPhysTable = buildTable d := if_pos hformat
  rw [htable]
  exact ⟨buildTable_length d, fun l => buildTable_getElem? d⟩

/-- Power-on leaves two status bits that can be set (R360). -/
theorem powerOnState_status_bit (s : State) {n : Nat} (hreset : n ≠ param.stRstState) (hdisk : n ≠ param.stDiskPres) :
    (powerOnState s).cmdStatus.getLsbD n = false := by
  have hzero : (0 : Word).getLsbD n = false := BitVec.getLsbD_zero
  exact (getLsbD_putBit_ne _ _ _ _ (by decide) hdisk).trans
    ((getLsbD_putBit_ne _ _ _ _ (by decide) hreset).trans hzero)

/-- Power-on rebuilds the table from the attachment as it finds it (R360). -/
theorem powerOnState_table (s : State) : (powerOnState s).lbaPhysTable =
    (diskAtPowerOn s).elim s.lbaPhysTable (tableFor · s.lbaPhysTable) := by
  unfold powerOnState
  dsimp only
  cases diskAtPowerOn s <;> rfl

/-- At power-on neither source is pending (R360). -/
theorem powerOnState_irqPending (s : State) : (powerOnState s).irqPending = false :=
  Bool.or_eq_false_iff.mpr ⟨powerOnState_status_bit s (by decide) (by decide),
    powerOnState_status_bit s (by decide) (by decide)⟩

/-- Settles O53: the line follows the two cleared sources. -/
theorem powerOnResetsTheDevice : Obligations.PowerOnResetsTheDevice := by
  refine fun s => ⟨Config.powerOnNow s.oracle, Config.powerOnLast s.oracle, diskAtPowerOn s, ?_,
    diskAtPowerOn_eq_disk s, fun d hd => ?_⟩
  · rw [exec_powerOn, State.updateIrqLine, powerOnState_irqPending]
    rfl
  · unfold diskAtPowerOn
    rw [hd, Option.map_some]
    split
    · exact ⟨_, rfl, withSystemData_wellFormed _, withSystemData_eq d _⟩
    · exact ⟨d, rfl, id, rfl⟩

end Sys2Proof.Machine

namespace Sys2Proof.Machine

open Sys2Proof.Spec

/-! ## What one operation can do

The inversion of `exec`, said once: an operation writes a command word, or it runs through the sequencer's registers,
or it is one of the other accesses and port events, each with its whole next state. The statements about the whole
machine go through these cases. -/

/-- The three operations that can run the sequencer (R132, R200, R220). -/
inductive Sequences : Instr → State → State → Prop
  | control {i : Instr} {v : Word} (h : controlWordOf i = some v) (s : State) : Sequences i s (controlResult v s)
  | statusRead (s : State) :
    Sequences .rdCmdStatus s ((pollResume s.refreshDiskPres).returnValue s.refreshDiskPres.cmdStatus)
  | step (s : State) : Sequences .step s (bmStep s)

/-- What an operation leaves of a state. -/
inductive Performs : Instr → State → State → Prop
  /-- A command write (R160). -/
  | command {i : Instr} {v : Word} {s t : State} (hword : commandWordOf i = some v) (heffect : CommandEffect v s t) :
    Performs i s (commandDone t)
  /-- A control write, a status read or a step. -/
  | sequencer {i : Instr} {s t : State} (h : Sequences i s t) : Performs i s t
  /-- An access that writes registers no rule reads, or outputs, alone (R131 to R151, R290 to R293). -/
  | access {i : Instr} {s : State} (hquiet : codeInvalidated s.rom.size i = []) (data host sec : Word)
    (diags : List Diag) (read : Option Word) (cost : Option Nat) : Performs i s { s with
      data := data, hostSecbyte := host, secByte := sec, diags := diags, readValue := read, dmaCost := cost }
  /-- The hard-reset write (R146). -/
  | hardReset (v : Word) (s : State) (diags : List Diag) : Performs (.wrHardReset v) s { s with
      cmdStatus := putBit s.cmdStatus param.stRstState true, diags := diags }
  /-- The write of a microsequencer word (R150). -/
  | wrMseq (k : Fin 16) (v : Word) (s : State) : Performs (.wrMseq k v) s { s with
      mseqRam := s.mseqRam.set k.val v k.isLt }
  /-- The completion signal of a buffer (R290). -/
  | cartAddr {a : Word} {n : Nat} (s : State) (hrange : 0x05000000 ≤ a.toNat ∧ a.toNat ≤ 0x050004FF)
    (hn : n = param.stC2Xfer ∨ n = param.stDataRq) : Performs (.cartAddr a) s
      (bmAcknowledged { s with cmdStatus := putBit (putBit s.cmdStatus n false) param.stBmErr false })
  /-- A transfer to the host that has a range (R291). -/
  | dmaToHost {c : Word} (dram n : Nat) {s : State} (hrange : dmaRange s.rom.size c ≠ .nothing)
    (src : Nat → Byte) (k : Nat) : Performs (.dmaToHost c dram n) s
      (((s.storeToHost dram src k).invalidateCode dram n).returnCost n)
  /-- A transfer from the host into `c2_buf` (R292). -/
  | fillC2 (c : Word) (dram n : Nat) (s : State) (src : Nat → Byte) : Performs (.dmaFromHost c dram n) s { s with
      c2Buf := Memory.writeBytes s.c2Buf (c2Index c) src n, dmaCost := some (transferCost n) }
  /-- A transfer from the host into `ds_buf` (R292). -/
  | fillDs (c : Word) (dram n : Nat) (s : State) (src : Nat → Byte) : Performs (.dmaFromHost c dram n) s { s with
      dsBuf := Memory.writeBytes s.dsBuf (dsIndex c) src n, dmaCost := some (transferCost n) }
  | attach (d : Disk) (s : State) : Performs (.attach d) s { s with
      disk := some d, lbaPhysTable := tableFor d s.lbaPhysTable, sysDataWritten := false }
  | detach (s : State) : Performs .detach s { s with disk := none }
  | powerOn (s : State) : Performs .powerOn s (powerOnState s).updateIrqLine

section
variable (s : State) (a : Word) (dram n : Nat)

theorem performs_cartAddr : ∃ t, exec (.cartAddr a) s = .next t ∧ Performs (.cartAddr a) s t := by
  have hexec := cartAddressClearsItsBuffer a s
  split_ifs at hexec with hc hd
  · exact ⟨_, hexec, .cartAddr s (by omega) (.inl rfl)⟩
  · exact ⟨_, hexec, .cartAddr s (by omega) (.inr rfl)⟩
  · exact ⟨_, hexec, .access rfl s.data s.hostSecbyte s.secByte s.diags s.readValue s.dmaCost⟩

theorem performs_dmaToHost : ∃ t, exec (.dmaToHost a dram n) s = .next t ∧ Performs (.dmaToHost a dram n) s t := by
  cases h : dmaRange s.rom.size a
  case c2 => exact ⟨_, exec_dmaToHost_c2 dram n h, .dmaToHost dram n (by rw [h]; decide) _ _⟩
  case ds => exact ⟨_, exec_dmaToHost_ds dram n h, .dmaToHost dram n (by rw [h]; decide) _ _⟩
  case rom => exact ⟨_, exec_dmaToHost_rom dram n h, .dmaToHost dram n (by rw [h]; decide) _ _⟩
  case nothing =>
    exact ⟨_, exec_dmaToHost_nothing dram n h, .access (s := s) (i := .dmaToHost a dram n) (if_pos h) _ _ _ _ _ _⟩

theorem performs_dmaFromHost :
    ∃ t, exec (.dmaFromHost a dram n) s = .next t ∧ Performs (.dmaFromHost a dram n) s t := by
  cases h : dmaRange s.rom.size a
  case c2 => exact ⟨_, exec_dmaFromHost_c2 dram n h, .fillC2 a dram n s _⟩
  case ds => exact ⟨_, exec_dmaFromHost_ds dram n h, .fillDs a dram n s _⟩
  case rom => exact ⟨_, exec_dmaFromHost_rom dram n h, .access rfl _ _ _ _ _ _⟩
  case nothing => exact ⟨_, exec_dmaFromHost_nothing dram n h, .access rfl _ _ _ _ _ _⟩

/-- Every operation completes, in one of the ways of `Performs`. -/
theorem exists_performs (i : Instr) : ∃ t, exec i s = .next t ∧ Performs i s t := by
  have command : ∀ {v}, commandWordOf i = some v → ∃ t, exec i s = .next t ∧ Performs i s t := fun hword => by
    obtain ⟨t, heffect, hexec⟩ := exec_command _ s hword
    exact ⟨_, hexec, .command hword heffect⟩
  have control : ∀ {v}, controlWordOf i = some v → ∃ t, exec i s = .next t ∧ Performs i s t := fun hword =>
    ⟨_, exec_control s hword, .sequencer (.control hword s)⟩
  cases i with
  | noop r | seekRead r | seekWrite r | recalibrate r | sleep r | start r | clrDskChng r | clrReset r
  | readVersion r | setDiskType r | requestStatus r | standby r | idxLockRetry r | setYearMonth r | setDayHour r
  | setMinSec r | getYearMonth r | getDayHour r | getMinSec r | featureInq r | cmdOther op r | wrCmdStatus v =>
    exact command rfl
  | wrBmStatusCtl v | bmctlSector00 hi lo | bmctlSector5A hi lo | bmctlSectorOther hi b lo | bmctlMechaRst hi lo
  | bmctlBlkTrans hi lo | bmctlReset hi lo | bmctlResetRelease hi lo | bmctlStart lo => exact control rfl
  | rdCmdStatus => exact ⟨_, exec_rdCmdStatus s, .sequencer (.statusRead s)⟩
  | step => exact ⟨_, exec_step s, .sequencer (.step s)⟩
  | rdData | rdCurTk | rdBmStatusCtl | rdCurSector | rdHardReset | rdHostSecbyte | rdSecByte | rdIdReg
  | wrData v | wrCurTk v | wrCurSector v | wrHostSecbyte v | wrSecByte v | wrIdReg v | rdMseq k | rdUndef a
  | wrUndef a v => exact ⟨_, rfl, .access rfl _ _ _ _ _ _⟩
  | wrHardReset v => exact ⟨_, exec_wrHardReset s v, .hardReset v s _⟩
  | wrMseq k v => exact ⟨_, exec_wrMseq s k v, .wrMseq k v s⟩
  | cartAddr a => exact performs_cartAddr s a
  | dmaToHost c dram n => exact performs_dmaToHost s c dram n
  | dmaFromHost c dram n => exact performs_dmaFromHost s c dram n
  | attach d => exact ⟨_, exec_attach s d, .attach d s⟩
  | detach => exact ⟨_, exec_detach s, .detach s⟩
  | powerOn => exact ⟨_, exec_powerOn s, .powerOn s⟩

variable {s}

theorem performs_of_exec {i : Instr} {t : State} (h : exec i s = .next t) : Performs i s t := by
  obtain ⟨u, hexec, hperforms⟩ := exists_performs s i
  obtain rfl : t = u := Host.Outcome.next.inj (h.symm.trans hexec)
  exact hperforms

end

end Sys2Proof.Machine

namespace Sys2Proof.Machine

open Sys2Proof.Spec

/-! ## The invariant (R48)

The invariant is what is stored being well formed, and the line being the OR of the two sources. The stored part is
kept by every piece of an operation; the line is right again wherever the pieces end in `lineTo`. -/

/-- The invariant without the line. -/
structure Stored (s : State) : Prop where
  cur_sector : s.curSector.toNat ≤ 90
  status_bits : s.cmdStatus &&& ~~~statusMask = 0
  bm_bits : s.bmStatusCtl &&& ~~~bmStatusMask = 0
  hard_reset : s.hardReset = 0
  id_reg : s.idReg = param.hwId
  c2_buf : Memory.ok Config.c2BufSize s.c2Buf = true
  ds_buf : Memory.ok Config.dsBufSize s.dsBuf = true
  host_mem : Memory.wf s.hostMem = true
  disk : s.diskOk = true

section
variable {s : State}

theorem inv_iff : s.Inv ↔ s.irqLine = (s.mechaInt || s.bmInt) ∧ Stored s :=
  ⟨fun ⟨h0, h1, h2, h3, h4, h5, h6, h7, h8, h9⟩ => ⟨h0, h1, h2, h3, h4, h5, h6, h7, h8, h9⟩,
    fun ⟨h0, h1, h2, h3, h4, h5, h6, h7, h8, h9⟩ => ⟨h0, h1, h2, h3, h4, h5, h6, h7, h8, h9⟩⟩

/-- Driving the line to the OR of the two sources restores the invariant (R330). -/
theorem Stored.inv_lineTo {level : Bool} (h : Stored s) (hlevel : level = (s.mechaInt || s.bmInt)) :
    (lineTo level s).Inv :=
  inv_iff.mpr ⟨hlevel, h.1, h.2, h.3, h.4, h.5, h.6, h.7, h.8, h.9⟩

/-- Other sector indices, status words and latches, of which the invariant says only these three things. -/
theorem Stored.withRegisters (h : Stored s) {sector status flags : Word} (hsector : sector.toNat ≤ 90)
    (hstatus : status &&& ~~~statusMask = 0) (hflags : flags &&& ~~~bmStatusMask = 0) (block held : Bool)
    (diags : List Diag) : Stored { s with
      curSector := sector, cmdStatus := status, bmStatusCtl := flags, bmBlock := block, bmResetHeld := held
      diags := diags } :=
  ⟨hsector, hstatus, hflags, h.4, h.5, h.6, h.7, h.8, h.9⟩

/-- Another status word. -/
theorem Stored.withStatus (h : Stored s) {status : Word} (hstatus : status &&& ~~~statusMask = 0) :
    Stored { s with cmdStatus := status } :=
  ⟨h.1, hstatus, h.3, h.4, h.5, h.6, h.7, h.8, h.9⟩

end

/-! The words: a named bit may be written. -/

/-- Writing a named bit of `CMD_STATUS` keeps the others clear (R23). -/
theorem putBit_status {w : Word} (hw : w &&& ~~~statusMask = 0) {n : Nat} (b : Bool)
    (hn : statusMask.getLsbD n = true) : putBit w n b &&& ~~~statusMask = 0 :=
  putBit_within_mask w statusMask n b (BitVec.lt_of_getLsbD hn) hn hw

/-- Writing a named bit of `BM_STATUS_CTL` keeps the others clear (R25). -/
theorem putBit_flags {w : Word} (hw : w &&& ~~~bmStatusMask = 0) {n : Nat} (b : Bool)
    (hn : bmStatusMask.getLsbD n = true) : putBit w n b &&& ~~~bmStatusMask = 0 :=
  putBit_within_mask w bmStatusMask n b (BitVec.lt_of_getLsbD hn) hn hw

theorem BranchStatus.mask {w x : Word} (h : BranchStatus w x) (hw : w &&& ~~~statusMask = 0) :
    x &&& ~~~statusMask = 0 := by
  cases h with
  | kept => exact hw
  | dataRq b => exact putBit_status hw b (by decide)
  | c2Xfer => exact putBit_status hw true (by decide)

theorem BranchFlags.mask {w x : Word} (h : BranchFlags w x) (hw : w &&& ~~~bmStatusMask = 0) :
    x &&& ~~~bmStatusMask = 0 := by
  induction h with
  | kept => exact hw
  | micro _ ih => exact putBit_flags ih true (by decide)
  | block _ ih => exact putBit_flags ih false (by decide)
  | running _ ih => exact putBit_flags ih false (by decide)

/-! The memories: a copy inside a memory's size. -/

theorem Memory.ok_iff {size : Nat} {m : Memory} :
    Memory.ok size m = true ↔ Memory.wf m = true ∧ Memory.below size m = true :=
  Bool.and_eq_true_iff

theorem Memory.ok_writeBytes {size : Nat} {m : Memory} (h : Memory.ok size m = true) (dst : Nat → Nat)
    (src : Nat → Byte) (n : Nat) (hdst : ∀ i < n, dst i < size) :
    Memory.ok size (Memory.writeBytes m dst src n) = true := by
  obtain ⟨hwf, hbelow⟩ := Memory.ok_iff.mp h
  exact Memory.ok_iff.mpr ⟨Memory.wf_writeBytes hwf dst src n, Memory.below_writeBytes hbelow dst src n hdst⟩

/-! The attachment. -/

/-- The attachment's part of the invariant, for a disk and a table. -/
def attachmentOk (disk : Option Disk) (table : List (BitVec 16)) : Prop :=
  ∀ d, disk = some d → d.wellFormed = true ∧ (d.format = .lba → table = buildTable d)

theorem diskOk_iff {s : State} : s.diskOk = true ↔ attachmentOk s.disk s.lbaPhysTable := by
  unfold State.diskOk attachmentOk
  cases s.disk with
  | none => simp
  | some d =>
    simp only [Bool.and_eq_true, Bool.or_eq_true, bne_iff_ne, beq_iff_eq, Option.some.injEq, forall_eq']
    exact and_congr_right fun _ => Decidable.imp_iff_not_or.symm

/-- The table that an attachment builds is the one the invariant asks for (R271). -/
theorem tableFor_of_lba {d : Disk} (h : d.format = .lba) (old : List (BitVec 16)) :
    tableFor d old = buildTable d := if_pos h

/-- A well-formed image stays so when bytes inside it change (R253). -/
theorem Disk.wellFormed_data {d : Disk} {m : Memory} (h : d.wellFormed = true)
    (hm : Memory.ok d.size m = true) : Disk.wellFormed { d with data := m } = true := by
  obtain ⟨hwf, hbelow⟩ := Memory.ok_iff.mp hm
  simp only [Disk.wellFormed, Bool.and_eq_true] at h ⊢
  obtain ⟨⟨⟨-, hsys⟩, hid⟩, htype⟩ := h
  exact ⟨⟨⟨⟨hwf, hbelow⟩, hsys⟩, hid⟩, htype⟩

theorem Disk.data_ok {d : Disk} (h : d.wellFormed = true) : Memory.ok d.size d.data = true := by
  simp only [Disk.wellFormed, Bool.and_eq_true] at h
  exact Memory.ok_iff.mpr h.1.1.1

section
variable {s : State}

/-- A sector write changes only bytes inside the image (R234). -/
theorem attachmentOk_sectorWrite (failed : Bool) (h : attachmentOk s.disk s.lbaPhysTable) :
    attachmentOk (sectorWrite s failed).disk s.lbaPhysTable := by
  unfold sectorWrite
  split
  · exact h
  · next d hd =>
    split
    · exact h
    · next hmoves =>
      have hin : s.bmTrackOffset.toNat + s.sectorSize ≤ d.size := by
        simp only [Bool.or_eq_true, Bool.not_eq_true', not_or, Bool.not_eq_false] at hmoves
        exact of_decide_eq_true hmoves.2
      obtain ⟨hwf, htable⟩ := h d hd
      rintro _ ⟨rfl⟩
      exact ⟨Disk.wellFormed_data hwf (Memory.ok_writeBytes (Disk.data_ok hwf) _ _ _ fun i hi => by omega), htable⟩

theorem attachmentOk_seekAndWrite (h : attachmentOk s.disk s.lbaPhysTable) :
    attachmentOk (seekAndWrite s).disk s.lbaPhysTable := by
  have hdisk : (seek s).1.disk = s.disk := (congrArg State.disk (seek_eq s) :)
  have htable : (seek s).1.lbaPhysTable = s.lbaPhysTable := (congrArg State.lbaPhysTable (seek_eq s) :)
  have hwrite := attachmentOk_sectorWrite (s := (seek s).1) (seek s).2 (by rwa [hdisk, htable])
  rwa [htable] at hwrite

/-- A sector read stays inside `ds_buf` (R233). -/
theorem dsBuf_ok_sectorRead (failed : Bool) (h : Memory.ok Config.dsBufSize s.dsBuf = true) :
    Memory.ok Config.dsBufSize (sectorRead s failed).dsBuf = true := by
  unfold sectorRead
  split
  · exact h
  · split
    · exact h
    · refine Memory.ok_writeBytes h _ _ _ fun i hi => ?_
      have hsize : s.sectorSize ≤ 232 := secSize16_le s.bmZone
      have hbuf : Config.dsBufSize = 256 := rfl
      omega

theorem dsBuf_ok_seekAndRead (h : Memory.ok Config.dsBufSize s.dsBuf = true) :
    Memory.ok Config.dsBufSize (seekAndRead s).dsBuf = true := by
  have hbuf : (seek s).1.dsBuf = s.dsBuf := (congrArg State.dsBuf (seek_eq s) :)
  exact dsBuf_ok_sectorRead (s := (seek s).1) (seek s).2 (by rwa [hbuf])

/-! A branch of a step. -/

theorem stepBranch_curSector_le (h : s.curSector.toNat ≤ 90) : (stepBranch s).curSector.toNat ≤ 90 := by
  have hnext : s.curSector.toNat ≤ 88 → (s.curSector + 1).toNat ≤ 90 := fun hle => by
    have hone : (1 : Word).toNat = 1 := rfl
    rw [BitVec.toNat_add, hone]
    omega
  unfold stepBranch
  split
  · apply writeBranch_cases s (P := fun t => t.curSector.toNat ≤ 90)
    case prime => exact fun _ => (by decide : (1 : Word).toNat ≤ 90)
    case data => exact fun hle => hnext (hle.trans (by decide))
    case flips => exact (by decide : (1 : Word).toNat ≤ 90)
    case stops => exact (by decide : (86 : Word).toNat ≤ 90)
    case overrun => exact h
  · apply readBranch_cases s (P := fun t => t.curSector.toNat ≤ 90)
    case quirk => exact h
    case data => exact fun hle => hnext (hle.trans (by decide))
    case correction => exact fun _ hle => hnext hle
    case flips => exact (by decide : (0 : Word).toNat ≤ 90)
    case stops => exact (by decide : (90 : Word).toNat ≤ 90)
    case overrun => exact h

/-- The four quarters lie inside `c2_buf` (R229). -/
theorem c2Buf_ok_zeroFillC2 {m : Memory} (h : Memory.ok Config.c2BufSize m = true) {k : Nat} (hk : k ≤ 3) :
    Memory.ok Config.c2BufSize (zeroFillC2 m k) = true := by
  have hbuf : Config.c2BufSize = 1024 := rfl
  rw [zeroFillC2]
  exact Memory.ok_writeBytes h _ _ _ fun i hi => by omega

theorem stepBranch_c2Buf_ok (h : Memory.ok Config.c2BufSize s.c2Buf = true) :
    Memory.ok Config.c2BufSize (stepBranch s).c2Buf = true := by
  have hread : (seekAndRead s).c2Buf = s.c2Buf := (congrArg State.c2Buf (seekAndRead_eq s) :)
  have hwrite : (writeBranch s).c2Buf = s.c2Buf := (congrArg State.c2Buf (writeBranch_eq s) :)
  unfold stepBranch
  split
  · rwa [hwrite]
  · apply readBranch_cases s (P := fun t => Memory.ok Config.c2BufSize t.c2Buf = true)
    case data => exact fun _ => hread ▸ h
    case correction =>
      intro _ hle
      dsimp only
      exact c2Buf_ok_zeroFillC2 h (by omega)
    case quirk | flips | stops | overrun => exact h

theorem stepBranch_dsBuf_ok (h : Memory.ok Config.dsBufSize s.dsBuf = true) :
    Memory.ok Config.dsBufSize (stepBranch s).dsBuf = true := by
  have hwrite : (writeBranch s).dsBuf = s.dsBuf := (congrArg State.dsBuf (writeBranch_eq s) :)
  unfold stepBranch
  split
  · rwa [hwrite]
  · apply readBranch_cases s (P := fun t => Memory.ok Config.dsBufSize t.dsBuf = true)
    case data => exact fun _ => dsBuf_ok_seekAndRead h
    case correction => exact fun _ _ => h
    case quirk | flips | stops | overrun => exact h

theorem stepBranch_attachmentOk (h : attachmentOk s.disk s.lbaPhysTable) :
    attachmentOk (stepBranch s).disk s.lbaPhysTable := by
  have hread : (readBranch s).disk = s.disk := (congrArg State.disk (readBranch_eq s) :)
  unfold stepBranch
  split
  · apply writeBranch_cases s (P := fun t => attachmentOk t.disk s.lbaPhysTable)
    case data => exact fun _ => attachmentOk_seekAndWrite h
    case prime => exact fun _ => h
    case flips | stops => exact attachmentOk_seekAndWrite h
    case overrun => exact h
  · rwa [hread]

end

end Sys2Proof.Machine

namespace Sys2Proof.Machine

open Sys2Proof.Spec

/-! ## Every operation keeps the invariant (R48)

What is stored, piece by piece; then the invariant, operation by operation. -/

section
variable {s : State}

theorem stepBranch_stored (h : Stored s) : Stored (stepBranch s) := by
  have hdisk := diskOk_iff.mp h.disk
  have hframe : (stepBranch s).hardReset = s.hardReset ∧ (stepBranch s).idReg = s.idReg ∧
      (stepBranch s).hostMem = s.hostMem ∧ (stepBranch s).lbaPhysTable = s.lbaPhysTable := by
    unfold stepBranch
    split
    · rw [writeBranch_eq]
      exact ⟨rfl, rfl, rfl, rfl⟩
    · rw [readBranch_eq]
      exact ⟨rfl, rfl, rfl, rfl⟩
  obtain ⟨hhard, hid, hhost, htable⟩ := hframe
  exact {
    cur_sector := stepBranch_curSector_le h.cur_sector
    status_bits := (stepBranch_status s).mask h.status_bits
    bm_bits := (stepBranch_flags s).mask h.bm_bits
    hard_reset := hhard.trans h.hard_reset
    id_reg := hid.trans h.id_reg
    c2_buf := stepBranch_c2Buf_ok h.c2_buf
    ds_buf := stepBranch_dsBuf_ok h.ds_buf
    host_mem := hhost ▸ h.host_mem
    disk := diskOk_iff.mpr (htable ▸ stepBranch_attachmentOk hdisk) }

/-- A running step ends with the line right, whatever it was before (R232). -/
theorem bmStep_inv_of_running (h : Stored s) (hrun : s.running = true) : (bmStep s).Inv := by
  have hbranch := stepBranch_stored h
  rw [bmStep_of_running hrun, stepDone]
  refine (hbranch.withStatus (putBit_status hbranch.status_bits true (by decide))).inv_lineTo ?_
  have hint : (putBit (stepBranch s).cmdStatus param.stBmInt true).getLsbD param.stBmInt = true :=
    getLsbD_putBit_self _ _ _ (by decide)
  exact (Bool.or_eq_true_iff.mpr (.inr hint)).symm

theorem bmStep_inv (h : s.Inv) : (bmStep s).Inv := by
  cases hrun : s.running
  · rwa [bmStep_not_running s hrun]
  · exact bmStep_inv_of_running (inv_iff.mp h).2 hrun

/-- Acknowledging the block-transfer interrupt leaves the line to the other source (R329). -/
theorem bmAcknowledged_inv (h : Stored s) : (bmAcknowledged s).Inv := by
  refine (h.withStatus (putBit_status h.status_bits false (by decide))).inv_lineTo ?_
  have hint : (putBit s.cmdStatus param.stBmInt false).getLsbD param.stBmInt = false :=
    getLsbD_putBit_self _ _ _ (by decide)
  have hmecha : (putBit s.cmdStatus param.stBmInt false).getLsbD param.stMechaInt = s.mechaInt :=
    getLsbD_putBit_ne _ _ _ _ (by decide) (by decide)
  exact ((congrArg₂ or hmecha hint).trans (Bool.or_false _)).symm

theorem commandDone_inv (h : Stored s) : (commandDone s).Inv := by
  refine (h.withStatus (putBit_status h.status_bits true (by decide))).inv_lineTo ?_
  have hint : (putBit s.cmdStatus param.stMechaInt true).getLsbD param.stMechaInt = true :=
    getLsbD_putBit_self _ _ _ (by decide)
  exact (Bool.or_eq_true_iff.mpr (.inl hint)).symm

/-- The fields that a command's effect writes beside the two clears are not in the invariant. -/
theorem CommandEffect.stored {v : Word} {t : State} (heffect : CommandEffect v s t) (h : Stored s) : Stored t := by
  cases heffect with
  | clrDskChng => exact h.withStatus (putBit_status h.status_bits false (by decide))
  | clrReset =>
    exact h.withStatus (putBit_status (putBit_status h.status_bits false (by decide)) false (by decide))
  | _ => exact ⟨h.1, h.2, h.3, h.4, h.5, h.6, h.7, h.8, h.9⟩

/-! The control write. -/

theorem controlledStatus_mask {v : Word} (h : s.cmdStatus &&& ~~~statusMask = 0) :
    controlledStatus v s &&& ~~~statusMask = 0 := by
  have hacked : (if v.getLsbD param.bmcMechaRst then putBit s.cmdStatus param.stMechaInt false else s.cmdStatus) &&&
      ~~~statusMask = 0 := by
    split
    · exact putBit_status h false (by decide)
    · exact h
  rw [controlledStatus_eq]
  dsimp only
  split
  · exact putBit_status (putBit_status (putBit_status (putBit_status hacked false (by decide)) false (by decide))
      false (by decide)) false (by decide)
  · exact hacked

theorem controlledFlags_mask {v : Word} (h : s.bmStatusCtl &&& ~~~bmStatusMask = 0) :
    controlledFlags v s &&& ~~~bmStatusMask = 0 := by
  unfold controlledFlags
  split
  · exact BitVec.zero_and
  · split
    · exact putBit_flags h true (by decide)
    · exact h

theorem controlled_inv (v : Word) (h : Stored s) : (controlled v s).Inv := by
  refine Stored.inv_lineTo (h.withRegisters ?_ (controlledStatus_mask h.status_bits) (controlledFlags_mask h.bm_bits)
    _ _ _) rfl
  split
  · decide
  · exact h.cur_sector

theorem started_stored (v : Word) (h : Stored s) : Stored (started v s) :=
  h.withRegisters h.cur_sector h.status_bits (putBit_flags h.bm_bits true (by decide)) _ _ _

theorem started_running (v : Word) (s : State) : (started v s).running = true :=
  getLsbD_putBit_self _ _ _ (by decide)

theorem controlResult_inv (v : Word) (h : Stored s) : (controlResult v s).Inv := by
  have hcontrolled := controlled_inv v h
  cases hstart : v.getLsbD param.bmcStart
  · rwa [controlResult_of_not_start s hstart]
  · rw [controlResult_of_start s hstart]
    exact bmStep_inv_of_running (started_stored v (inv_iff.mp hcontrolled).2) (started_running v _)

/-! The status read. -/

/-- A status bit that is no interrupt's may be written without the line. -/
theorem inv_putStatus (h : s.Inv) {n : Nat} (b : Bool) (hn : statusMask.getLsbD n = true)
    (hmecha : param.stMechaInt ≠ n) (hint : param.stBmInt ≠ n) : (s.putStatus n b).Inv := by
  obtain ⟨hline, hstored⟩ := inv_iff.mp h
  refine inv_iff.mpr ⟨hline.trans ?_, hstored.withStatus (putBit_status hstored.status_bits b hn)⟩
  rw [s.putStatus_mechaInt n b (BitVec.lt_of_getLsbD hn), s.putStatus_bmInt n b (BitVec.lt_of_getLsbD hn),
    if_neg hmecha, if_neg hint]

theorem refreshDiskPres_inv (h : s.Inv) : s.refreshDiskPres.Inv :=
  inv_putStatus h _ (by decide) (by decide) (by decide)

/-- A status read either leaves the refreshed state or acknowledges and steps (R132). -/
theorem pollResume_cases (s : State) : pollResume s = s ∨
    (s.bmInt = true ∧ 86 ≤ s.curSector.toNat ∧ pollResume s = bmStep (bmAcknowledged s)) := by
  by_cases h : s.bmInt = true ∧ 86 ≤ s.curSector.toNat
  · exact .inr ⟨h.1, h.2, pollResume_resumes h.1 h.2⟩
  · refine .inl (pollResume_idle ?_)
    rw [not_and_or, Bool.not_eq_true, not_le] at h
    exact h

theorem pollResume_inv (h : s.Inv) : (pollResume s).Inv := by
  rcases pollResume_cases s with hidle | ⟨-, -, hresume⟩
  · rwa [hidle]
  · rw [hresume]
    exact bmStep_inv (bmAcknowledged_inv (inv_iff.mp h).2)

theorem Sequences.inv {i : Instr} {t : State} (hseq : Sequences i s t) (h : s.Inv) : t.Inv := by
  cases hseq with
  | control _ => exact controlResult_inv _ (inv_iff.mp h).2
  | statusRead =>
    obtain ⟨hline, hstored⟩ := inv_iff.mp (pollResume_inv (refreshDiskPres_inv h))
    exact inv_iff.mpr ⟨hline, hstored.1, hstored.2, hstored.3, hstored.4, hstored.5, hstored.6, hstored.7, hstored.8,
      hstored.9⟩
  | step => exact bmStep_inv h

/-! Attachment and power-on. -/

theorem attach_stored {d : Disk} (hd : d.wellFormed = true) (h : Stored s) : Stored { s with
    disk := some d, lbaPhysTable := tableFor d s.lbaPhysTable, sysDataWritten := false } where
  __ := h
  disk := diskOk_iff.mpr fun _ hsome => Option.some.inj hsome ▸ ⟨hd, fun hformat => tableFor_of_lba hformat _⟩

/-- What power-on rereads is well formed, and it rebuilds the table from that (R360, R376). -/
theorem attachmentOk_powerOn (h : attachmentOk s.disk s.lbaPhysTable) :
    attachmentOk (powerOnState s).disk (powerOnState s).lbaPhysTable := by
  intro d hd
  have hat : diskAtPowerOn s = some d := hd
  rw [powerOnState_table, hat]
  refine ⟨?_, fun hformat => tableFor_of_lba hformat _⟩
  unfold diskAtPowerOn at hat
  obtain ⟨d₀, hd₀, rfl⟩ := Option.map_eq_some_iff.mp hat
  obtain ⟨hwf, -⟩ := h d₀ hd₀
  split
  · exact withSystemData_wellFormed _ hwf
  · exact hwf

theorem powerOn_inv (h : Stored s) : (powerOnState s).updateIrqLine.Inv := by
  rw [updateIrqLine_eq]
  exact Stored.inv_lineTo {
    cur_sector := (by decide : (0 : Word).toNat ≤ 90)
    status_bits := putBit_status (putBit_status BitVec.zero_and true (by decide)) _ (by decide)
    bm_bits := BitVec.zero_and
    hard_reset := rfl
    id_reg := rfl
    c2_buf := rfl
    ds_buf := rfl
    host_mem := h.host_mem
    disk := diskOk_iff.mpr (attachmentOk_powerOn (diskOk_iff.mp h.disk)) } rfl

/-- Every well-formed operation keeps the invariant. -/
theorem Performs.inv {i : Instr} {t : State} (hperforms : Performs i s t) (hwf : i.wellFormed = true) (h : s.Inv) :
    t.Inv := by
  obtain ⟨hline, hstored⟩ := inv_iff.mp h
  cases hperforms with
  | command _ heffect => exact commandDone_inv (heffect.stored hstored)
  | sequencer hseq => exact hseq.inv h
  | access => exact inv_iff.mpr ⟨hline, hstored.1, hstored.2, hstored.3, hstored.4, hstored.5, hstored.6, hstored.7,
      hstored.8, hstored.9⟩
  | hardReset =>
    obtain ⟨hline, hset⟩ := inv_iff.mp (inv_putStatus h (n := param.stRstState) true (by decide) (by decide)
      (by decide))
    exact inv_iff.mpr ⟨hline, hset.1, hset.2, hset.3, hset.4, hset.5, hset.6, hset.7, hset.8, hset.9⟩
  | wrMseq => exact inv_iff.mpr ⟨hline, hstored.1, hstored.2, hstored.3, hstored.4, hstored.5, hstored.6, hstored.7,
      hstored.8, hstored.9⟩
  | cartAddr _ hrange hn =>
    refine bmAcknowledged_inv (hstored.withStatus (putBit_status (putBit_status hstored.status_bits false ?_) false
      (by decide)))
    rcases hn with rfl | rfl <;> decide
  | dmaToHost =>
    exact inv_iff.mpr ⟨hline, hstored.1, hstored.2, hstored.3, hstored.4, hstored.5, hstored.6, hstored.7,
      Memory.wf_writeBytes hstored.host_mem _ _ _, hstored.9⟩
  | fillC2 =>
    refine inv_iff.mpr ⟨hline, hstored.1, hstored.2, hstored.3, hstored.4, hstored.5,
      Memory.ok_writeBytes hstored.c2_buf _ _ _ fun i _ => ?_, hstored.7, hstored.8, hstored.9⟩
    rw [c2Index_eq]
    exact Nat.mod_lt _ (by decide)
  | fillDs =>
    refine inv_iff.mpr ⟨hline, hstored.1, hstored.2, hstored.3, hstored.4, hstored.5, hstored.6,
      Memory.ok_writeBytes hstored.ds_buf _ _ _ fun i _ => ?_, hstored.8, hstored.9⟩
    rw [dsIndex_eq]
    exact Nat.mod_lt _ (by decide)
  | attach => exact inv_iff.mpr ⟨hline, attach_stored hwf hstored⟩
  | detach => exact inv_iff.mpr ⟨hline, hstored.1, hstored.2, hstored.3, hstored.4, hstored.5, hstored.6, hstored.7,
      hstored.8, rfl⟩
  | powerOn => exact powerOn_inv hstored

end

/-- Settles O54: taking an operation off the pending list touches nothing of the invariant, and what decodes is well
formed. -/
theorem stepKeepsInvariant : Obligations.StepKeepsInvariant := by
  intro s t hinv hstep
  cases hpending : s.pending with
  | nil =>
    rw [step_of_idle hpending] at hstep
    cases hstep
    exact hinv
  | cons op rest =>
    cases hdecode : decode op with
    | ok i =>
      rw [step_of_decode_ok hpending hdecode] at hstep
      have htaken : State.Inv { s with pending := rest } :=
        ⟨hinv.1, hinv.2, hinv.3, hinv.4, hinv.5, hinv.6, hinv.7, hinv.8, hinv.9, hinv.10⟩
      exact (performs_of_exec hstep).inv (decode_wellFormed hdecode) htaken
    | error e =>
      rw [step_of_decode_error hpending hdecode] at hstep
      cases hstep

/-- Settles O55, field by field. -/
theorem resetMeetsInvariant : Obligations.ResetMeetsInvariant where
  line := rfl
  cur_sector := by decide
  status_bits := by decide
  bm_bits := by decide
  hard_reset := rfl
  id_reg := rfl
  c2_buf := rfl
  ds_buf := rfl
  host_mem := rfl
  disk := rfl

/-- Settles O56. -/
theorem resetValues : Obligations.ResetValues := by
  have hstatus : State.reset.cmdStatus = putBit 0 param.stRstState true := rfl
  refine ⟨rfl, rfl, rfl, rfl, rfl, rfl, rfl, rfl, rfl, rfl, fun n hn => ?_, rfl, rfl, rfl, rfl, rfl, fun _ => rfl,
    fun _ => rfl, by decide, rfl⟩
  rw [hstatus, getLsbD_putBit_ne _ _ _ _ (by decide) hn]
  exact BitVec.getLsbD_zero

end Sys2Proof.Machine

namespace Sys2Proof.Machine

open Sys2Proof.Spec

/-! ## What runs through the sequencer

A control write, a status read and a step are one shape: they prepare a state, writing only the registers of the
sequencer and the outputs, and then they may run one step on it. -/

/-- What stands before the step: the fields a control write or a status read writes by itself. -/
def Prepares (s m : State) : Prop :=
  m = { s with
    cmdStatus := m.cmdStatus, bmStatusCtl := m.bmStatusCtl, curSector := m.curSector, bmBlock := m.bmBlock
    bmResetHeld := m.bmResetHeld, irqLine := m.irqLine, diags := m.diags, lineCalls := m.lineCalls }

section
variable {i : Instr} {s t : State}

/-- The state prepared, and whether a step follows; a status read leaves its value beside that. -/
theorem Sequences.prepares (h : Sequences i s t) : ∃ m, Prepares s m ∧
    ((m.bmBlock = s.bmBlock ∧ m.bmResetHeld = s.bmResetHeld) ∨ ∃ v, controlWordOf i = some v) ∧
    (t = { m with readValue := t.readValue } ∨
      (maySequence i s ∧ t = { bmStep m with readValue := t.readValue })) := by
  cases h with
  | @control _ v hword =>
    cases hstart : v.getLsbD param.bmcStart
    · rw [controlResult_of_not_start s hstart]
      exact ⟨controlled v s, rfl, .inr ⟨v, hword⟩, .inl rfl⟩
    · rw [controlResult_of_start s hstart]
      exact ⟨started v (controlled v s), rfl, .inr ⟨v, hword⟩, .inr ⟨.inr (.inr ⟨v, hword, hstart⟩), rfl⟩⟩
  | statusRead =>
    rcases pollResume_cases s.refreshDiskPres with hidle | ⟨hint, hsector, hresume⟩
    · rw [hidle]
      exact ⟨s.refreshDiskPres, rfl, .inl ⟨rfl, rfl⟩, .inl rfl⟩
    · rw [hresume]
      refine ⟨bmAcknowledged s.refreshDiskPres, rfl, .inl ⟨rfl, rfl⟩, ?_⟩
      cases hrun : s.running
      · left
        have hstopped : bmStep (bmAcknowledged s.refreshDiskPres) = bmAcknowledged s.refreshDiskPres :=
          bmStep_not_running _ hrun
        rw [hstopped]
        rfl
      · exact .inr ⟨.inr (.inl ⟨rfl, hrun, refreshDiskPres_bmInt s ▸ hint, hsector⟩), rfl⟩
  | step =>
    cases hrun : s.running
    · rw [bmStep_not_running s hrun]
      exact ⟨s, rfl, .inl ⟨rfl, rfl⟩, .inl rfl⟩
    · exact ⟨s, rfl, .inl ⟨rfl, rfl⟩, .inr ⟨.inl ⟨rfl, hrun⟩, rfl⟩⟩

/-- The fields that none of the three writes. -/
theorem Sequences.frame (h : Sequences i s t) : t = { s with
    cmdStatus := t.cmdStatus, bmStatusCtl := t.bmStatusCtl, curSector := t.curSector, bmBlock := t.bmBlock
    bmZone := t.bmZone, bmTrackOffset := t.bmTrackOffset, bmResetHeld := t.bmResetHeld, c2Buf := t.c2Buf
    dsBuf := t.dsBuf, irqLine := t.irqLine, disk := t.disk, sysDataWritten := t.sysDataWritten, diags := t.diags
    lineCalls := t.lineCalls, readValue := t.readValue } := by
  obtain ⟨m, hprepared, -, ht | ⟨-, ht⟩⟩ := h.prepares
  · rw [ht, hprepared]
  · rw [ht, bmStep_eq, hprepared]

/-- The read direction writes no image (R233). -/
theorem bmStep_disk (h : s.bmWrite = false) : (bmStep s).disk = s.disk := by
  cases hrun : s.running
  · rw [bmStep_not_running s hrun]
  · rw [bmStep_of_running hrun, stepBranch, if_neg (Bool.eq_false_iff.mp h), readBranch_eq]
    rfl

/-- The write direction writes no buffer (R234). -/
theorem bmStep_buffers (h : s.bmWrite = true) : (bmStep s).dsBuf = s.dsBuf ∧ (bmStep s).c2Buf = s.c2Buf := by
  cases hrun : s.running
  · rw [bmStep_not_running s hrun]
    exact ⟨rfl, rfl⟩
  · rw [bmStep_of_running hrun, stepBranch, if_pos h, writeBranch_eq]
    exact ⟨rfl, rfl⟩

theorem Sequences.zone_offset (h : Sequences i s t) :
    (t.bmZone = s.bmZone ∧ t.bmTrackOffset = s.bmTrackOffset) ∨ maySequence i s := by
  obtain ⟨m, hprepared, -, ht | ⟨hmay, -⟩⟩ := h.prepares
  · rw [ht, hprepared]
    exact .inl ⟨rfl, rfl⟩
  · exact .inr hmay

theorem Sequences.block (h : Sequences i s t) :
    t.bmBlock = s.bmBlock ∨ (∃ v, controlWordOf i = some v) ∨ maySequence i s := by
  obtain ⟨m, -, ⟨hblock, -⟩ | hword, ht | ⟨hmay, -⟩⟩ := h.prepares
  · rw [ht]
    exact .inl hblock
  · exact .inr (.inr hmay)
  · exact .inr (.inl hword)
  · exact .inr (.inl hword)

theorem Sequences.resetHeld (h : Sequences i s t) :
    t.bmResetHeld = s.bmResetHeld ∨ ∃ v, controlWordOf i = some v := by
  obtain ⟨m, -, ⟨-, hheld⟩ | hword, ht | ⟨-, ht⟩⟩ := h.prepares
  · rw [ht]
    exact .inl hheld
  · rw [ht, bmStep_eq]
    exact .inl hheld
  · exact .inr hword
  · exact .inr hword

theorem Sequences.disk (h : Sequences i s t) : t.disk = s.disk ∨ (maySequence i s ∧ s.bmWrite = true) := by
  obtain ⟨m, hprepared, -, ht | ⟨hmay, ht⟩⟩ := h.prepares
  · rw [ht, hprepared]
    exact .inl rfl
  · have hwrite : m.bmWrite = s.bmWrite := (congrArg State.bmWrite hprepared :)
    have hdisk : m.disk = s.disk := (congrArg State.disk hprepared :)
    cases hdir : s.bmWrite
    · rw [ht]
      exact .inl ((bmStep_disk (hwrite.trans hdir)).trans hdisk)
    · exact .inr ⟨hmay, rfl⟩

theorem Sequences.buffers (h : Sequences i s t) :
    (t.dsBuf = s.dsBuf ∧ t.c2Buf = s.c2Buf) ∨ (maySequence i s ∧ s.bmWrite = false) := by
  obtain ⟨m, hprepared, -, ht | ⟨hmay, ht⟩⟩ := h.prepares
  · rw [ht, hprepared]
    exact .inl ⟨rfl, rfl⟩
  · have hwrite : m.bmWrite = s.bmWrite := (congrArg State.bmWrite hprepared :)
    have hds : m.dsBuf = s.dsBuf := (congrArg State.dsBuf hprepared :)
    have hc2 : m.c2Buf = s.c2Buf := (congrArg State.c2Buf hprepared :)
    cases hdir : s.bmWrite
    · exact .inr ⟨hmay, rfl⟩
    · obtain ⟨hsameDs, hsameC2⟩ := bmStep_buffers (hwrite.trans hdir)
      rw [ht]
      exact .inl ⟨hsameDs.trans hds, hsameC2.trans hc2⟩

end

end Sys2Proof.Machine

namespace Sys2Proof.Machine

open Sys2Proof.Spec

/-! ## The writers of each part of the state

One lemma per part: an operation keeps it, or it is one of those that may write it. -/

section
variable {i : Instr} {s t : State}

theorem Performs.curTk_bmWrite (h : Performs i s t) : (t.curTk = s.curTk ∧ t.bmWrite = s.bmWrite) ∨
    i = .powerOn ∨ ∃ v, commandWordOf i = some v ∧ cmdOp v ∈ [param.opSeekRead, param.opSeekWrite] := by
  cases h with
  | @command _ v _ u hword heffect =>
    by_cases hop : cmdOp v ∈ [param.opSeekRead, param.opSeekWrite]
    · exact .inr (.inr ⟨v, hword, hop⟩)
    · exact .inl (heffect.latches hop)
  | sequencer hseq => exact .inl ⟨(congrArg State.curTk hseq.frame :), (congrArg State.bmWrite hseq.frame :)⟩
  | powerOn => exact .inr (.inl rfl)
  | _ => exact .inl ⟨rfl, rfl⟩

theorem Performs.zone_offset (h : Performs i s t) : (t.bmZone = s.bmZone ∧ t.bmTrackOffset = s.bmTrackOffset) ∨
    i = .powerOn ∨ maySequence i s := by
  cases h with
  | command _ heffect =>
    exact .inl ⟨(congrArg State.bmZone heffect.done_frame :), (congrArg State.bmTrackOffset heffect.done_frame :)⟩
  | sequencer hseq => exact hseq.zone_offset.imp_right .inr
  | powerOn => exact .inr (.inl rfl)
  | _ => exact .inl ⟨rfl, rfl⟩

theorem Performs.block (h : Performs i s t) :
    t.bmBlock = s.bmBlock ∨ i = .powerOn ∨ (∃ v, controlWordOf i = some v) ∨ maySequence i s := by
  cases h with
  | command _ heffect => exact .inl (congrArg State.bmBlock heffect.done_frame :)
  | sequencer hseq => exact hseq.block.imp_right .inr
  | powerOn => exact .inr (.inl rfl)
  | _ => exact .inl rfl

theorem Performs.resetHeld (h : Performs i s t) :
    t.bmResetHeld = s.bmResetHeld ∨ i = .powerOn ∨ ∃ v, controlWordOf i = some v := by
  cases h with
  | command _ heffect => exact .inl (congrArg State.bmResetHeld heffect.done_frame :)
  | sequencer hseq => exact hseq.resetHeld.imp_right .inr
  | powerOn => exact .inr (.inl rfl)
  | _ => exact .inl rfl

theorem Performs.disk (h : Performs i s t) : t.disk = s.disk ∨ i = .detach ∨ (∃ d, i = .attach d) ∨
    (i = .powerOn ∧ s.sysDataWritten = true) ∨ (maySequence i s ∧ s.bmWrite = true) := by
  cases h with
  | command _ heffect => exact .inl (congrArg State.disk heffect.done_frame :)
  | sequencer hseq => exact hseq.disk.imp_right fun hmay => .inr (.inr (.inr hmay))
  | attach d => exact .inr (.inr (.inl ⟨d, rfl⟩))
  | detach => exact .inr (.inl rfl)
  | powerOn =>
    cases hwritten : s.sysDataWritten
    · exact .inl (diskAtPowerOn_eq_disk s (.inl hwritten))
    · exact .inr (.inr (.inr (.inl ⟨rfl, rfl⟩)))
  | _ => exact .inl rfl

/-- Power-on keeps the format of the attachment, and so a table that is not an `LBA` image's (R360, R376). -/
theorem powerOn_table (s : State) : (powerOnState s).lbaPhysTable = s.lbaPhysTable ∨
    ∃ d, s.disk = some d ∧ d.format = .lba := by
  by_cases hlba : ∃ d, s.disk = some d ∧ d.format = .lba
  · exact .inr hlba
  · left
    have hdisk := diskAtPowerOn_eq_disk s (.inr fun d hd hformat => hlba ⟨d, hd, hformat⟩)
    rw [powerOnState_table, hdisk]
    cases hd : s.disk with
    | none => rfl
    | some d => exact if_neg fun hformat => hlba ⟨d, hd, hformat⟩

theorem Performs.table (h : Performs i s t) : t.lbaPhysTable = s.lbaPhysTable ∨
    (∃ d, i = .attach d ∧ d.format = .lba) ∨ (i = .powerOn ∧ ∃ d, s.disk = some d ∧ d.format = .lba) := by
  cases h with
  | command _ heffect => exact .inl (congrArg State.lbaPhysTable heffect.done_frame :)
  | sequencer hseq => exact .inl (congrArg State.lbaPhysTable hseq.frame :)
  | attach d =>
    by_cases hformat : d.format = .lba
    · exact .inr (.inl ⟨d, rfl, hformat⟩)
    · exact .inl (if_neg hformat)
  | powerOn => exact (powerOn_table s).imp_right fun hd => .inr ⟨rfl, hd⟩
  | _ => exact .inl rfl

theorem Performs.clock (h : Performs i s t) : (t.rtcNow = s.rtcNow ∧ t.rtcLast = s.rtcLast) ∨ i = .powerOn ∨
    ∃ v, commandWordOf i = some v ∧ cmdOp v ∈ [param.opGetYearMonth, param.opGetDayHour, param.opGetMinSec] := by
  cases h with
  | @command _ v _ u hword heffect =>
    by_cases hop : cmdOp v ∈ [param.opGetYearMonth, param.opGetDayHour, param.opGetMinSec]
    · exact .inr (.inr ⟨v, hword, hop⟩)
    · exact .inl ⟨(heffect.clock hop).1, (heffect.clock hop).2.1⟩
  | sequencer hseq => exact .inl ⟨(congrArg State.rtcNow hseq.frame :), (congrArg State.rtcLast hseq.frame :)⟩
  | powerOn => exact .inr (.inl rfl)
  | _ => exact .inl ⟨rfl, rfl⟩

theorem Performs.buffers (h : Performs i s t) : (t.dsBuf = s.dsBuf ∧ t.c2Buf = s.c2Buf) ∨ i = .powerOn ∨
    (∃ c a n, i = .dmaFromHost c a n) ∨ (maySequence i s ∧ s.bmWrite = false) := by
  cases h with
  | command _ heffect =>
    exact .inl ⟨(congrArg State.dsBuf heffect.done_frame :), (congrArg State.c2Buf heffect.done_frame :)⟩
  | sequencer hseq => exact hseq.buffers.imp_right fun hmay => .inr (.inr hmay)
  | fillC2 c a n | fillDs c a n => exact .inr (.inr (.inl ⟨c, a, n, rfl⟩))
  | powerOn => exact .inr (.inl rfl)
  | _ => exact .inl ⟨rfl, rfl⟩

theorem Performs.hostMem (h : Performs i s t) : t.hostMem = s.hostMem ∨ ∃ c a n, i = .dmaToHost c a n := by
  cases h with
  | command _ heffect => exact .inl (congrArg State.hostMem heffect.done_frame :)
  | sequencer hseq => exact .inl (congrArg State.hostMem hseq.frame :)
  | @dmaToHost c dram n => exact .inr ⟨c, dram, n, rfl⟩
  | _ => exact .inl rfl

theorem Performs.rom (h : Performs i s t) : t.rom = s.rom := by
  cases h with
  | command _ heffect => exact (congrArg State.rom heffect.done_frame :)
  | sequencer hseq => exact (congrArg State.rom hseq.frame :)
  | _ => rfl

theorem Performs.mseqRam (h : Performs i s t) : t.mseqRam = s.mseqRam ∨ i = .powerOn ∨ ∃ k v, i = .wrMseq k v := by
  cases h with
  | command _ heffect => exact .inl (congrArg State.mseqRam heffect.done_frame :)
  | sequencer hseq => exact .inl (congrArg State.mseqRam hseq.frame :)
  | wrMseq k v => exact .inr (.inr ⟨k, v, rfl⟩)
  | powerOn => exact .inr (.inl rfl)
  | _ => exact .inl rfl

end

/-- Settles O60. -/
theorem stateHasNamedWriters : Obligations.StateHasNamedWriters := by
  intro i s t hexec
  have h := performs_of_exec hexec
  exact ⟨fun hne => h.curTk_bmWrite.resolve_left fun ⟨htk, hdir⟩ => hne.elim (absurd htk) (absurd hdir),
    fun hne => h.zone_offset.resolve_left fun ⟨hzone, hoff⟩ => hne.elim (absurd hzone) (absurd hoff),
    h.block.resolve_left, h.resetHeld.resolve_left, h.disk.resolve_left, h.table.resolve_left,
    fun hne => h.clock.resolve_left fun ⟨hnow, hlast⟩ => hne.elim (absurd hnow) (absurd hlast),
    fun hne => h.buffers.resolve_left fun ⟨hds, hc2⟩ => hne.elim (absurd hds) (absurd hc2),
    h.hostMem.resolve_left, h.rom, h.mseqRam.resolve_left⟩

end Sys2Proof.Machine

namespace Sys2Proof.Machine

open Sys2Proof.Spec

/-! ## The status bits of every operation (R320 to R334) -/

section
variable {i : Instr} {s t : State} {n : Nat}

/-- A control write clears `MECHA_INT` by its mecha-reset bit and the four bits of the BM reset, and sets none
(R202, R204). -/
theorem getLsbD_controlledStatus (v : Word) (s : State) (n : Nat) : (controlledStatus v s).getLsbD n =
    (s.cmdStatus.getLsbD n && !(v.getLsbD param.bmcMechaRst && decide (n = param.stMechaInt)) &&
      !(bmResets v s && decide (n ∈ bmClearedBits))) := by
  have hacked : (if v.getLsbD param.bmcMechaRst then putBit s.cmdStatus param.stMechaInt false else
      s.cmdStatus).getLsbD n =
      (s.cmdStatus.getLsbD n && !(v.getLsbD param.bmcMechaRst && decide (n = param.stMechaInt))) := by
    cases v.getLsbD param.bmcMechaRst
    · simp
    · rw [if_pos rfl, getLsbD_putBit _ _ _ _ (by decide)]
      by_cases hn : n = param.stMechaInt <;> simp [hn]
  rw [controlledStatus_eq]
  dsimp only
  cases bmResets v s
  · rw [if_neg (by decide), hacked]
    simp
  · rw [if_pos rfl, getLsbD_bmCleared, hacked]
    simp [Bool.and_comm]

/-- The status bits that neither a step nor the refresh writes are kept, or a control write clears them. -/
theorem Sequences.status_bit (h : Sequences i s t) (hdata : n ≠ param.stDataRq) (hc2 : n ≠ param.stC2Xfer)
    (hint : n ≠ param.stBmInt) (hdisk : n ≠ param.stDiskPres) : t.cmdStatus.getLsbD n = s.cmdStatus.getLsbD n ∨
      ∃ v, controlWordOf i = some v ∧ t.cmdStatus.getLsbD n = (controlledStatus v s).getLsbD n := by
  cases h with
  | @control _ v hword =>
    refine .inr ⟨v, hword, ?_⟩
    cases hstart : v.getLsbD param.bmcStart
    · rw [controlResult_of_not_start s hstart]
      rfl
    · rw [controlResult_of_start s hstart]
      exact bmStep_status_bit _ hdata hc2 hint
  | statusRead =>
    left
    have hfresh : s.refreshDiskPres.cmdStatus.getLsbD n = s.cmdStatus.getLsbD n :=
      getLsbD_putBit_ne _ _ _ _ (by decide) hdisk
    rw [State.returnValue_cmdStatus]
    rcases pollResume_cases s.refreshDiskPres with hidle | ⟨-, -, hresume⟩
    · rw [hidle, hfresh]
    · rw [hresume, bmStep_status_bit _ hdata hc2 hint, ← hfresh]
      exact getLsbD_putBit_ne _ _ _ _ (by decide) hint
  | step => exact .inl (bmStep_status_bit _ hdata hc2 hint)

/-- The acknowledgment of a buffer clears three bits and writes no other. -/
theorem cartAddr_status_bit {k : Nat} (s : State) (hk : k = param.stC2Xfer ∨ k = param.stDataRq)
    (hint : n ≠ param.stBmInt) (herr : n ≠ param.stBmErr) (hc2 : n ≠ param.stC2Xfer) (hdata : n ≠ param.stDataRq) :
    (bmAcknowledged { s with cmdStatus := putBit (putBit s.cmdStatus k false) param.stBmErr false }).cmdStatus.getLsbD
      n = s.cmdStatus.getLsbD n := by
  have hk32 : k < 32 := by rcases hk with rfl | rfl <;> decide
  have hnk : n ≠ k := by rcases hk with rfl | rfl <;> assumption
  exact (getLsbD_putBit_ne _ _ _ _ (by decide) hint).trans
    ((getLsbD_putBit_ne _ _ _ _ (by decide) herr).trans (getLsbD_putBit_ne _ _ _ _ hk32 hnk))

/-! `BM_INT`. -/

theorem Sequences.bmInt_raised (h : Sequences i s t) (hs : s.bmInt = false) (ht : t.bmInt = true) :
    maySequence i s := by
  cases h with
  | @control _ v hword =>
    refine .inr (.inr ⟨v, hword, Bool.eq_true_of_not_eq_false fun hstart => ?_⟩)
    rw [controlResult_of_not_start s hstart] at ht
    have hkept := (getLsbD_controlledStatus v s param.stBmInt).symm.trans ht
    rw [State.bmInt] at hs
    rw [hs] at hkept
    cases hkept
  | statusRead =>
    have hidle : pollResume s.refreshDiskPres = s.refreshDiskPres := pollResume_idle
      (.inl (by rw [refreshDiskPres_bmInt, hs]))
    rw [hidle] at ht
    exact absurd (hs.symm.trans ((refreshDiskPres_bmInt s).symm.trans ht)) (by decide)
  | step =>
    rw [bmStep_bmInt, hs, Bool.or_false] at ht
    exact .inl ⟨rfl, ht⟩

theorem Sequences.bmInt_cleared (h : Sequences i s t) (hs : s.bmInt = true) (ht : t.bmInt = false) :
    (i = .rdCmdStatus ∧ 86 ≤ s.curSector.toNat) ∨ ∃ v, controlWordOf i = some v ∧ bmResets v s = true := by
  cases h with
  | @control _ v hword =>
    refine .inr ⟨v, hword, Bool.eq_true_of_not_eq_false fun hreset => ?_⟩
    have hkept : (controlled v s).bmInt = true := by
      refine (getLsbD_controlledStatus v s param.stBmInt).trans ?_
      rw [hreset]
      simpa [State.bmInt, param] using hs
    cases hstart : v.getLsbD param.bmcStart
    · rw [controlResult_of_not_start s hstart, hkept] at ht
      cases ht
    · rw [controlResult_of_start s hstart, bmStep_bmInt, started_running, Bool.true_or] at ht
      cases ht
  | statusRead =>
    rcases pollResume_cases s.refreshDiskPres with hidle | ⟨-, hsector, -⟩
    · rw [hidle] at ht
      exact absurd (hs.symm.trans ((refreshDiskPres_bmInt s).symm.trans ht)) (by decide)
    · exact .inl ⟨rfl, hsector⟩
  | step =>
    rw [bmStep_bmInt, hs, Bool.or_true] at ht
    cases ht

theorem Performs.bmInt_raised (h : Performs i s t) (hs : s.bmInt = false) (ht : t.bmInt = true) :
    maySequence i s := by
  have hsame : s.bmInt ≠ true := by rw [hs]; decide
  cases h with
  | command _ heffect =>
    have hdone := (commandDone_status_bit _ (by decide)).symm.trans ht
    rw [heffect.status_bit (by decide) (by decide)] at hdone
    exact absurd hdone hsame
  | sequencer hseq => exact hseq.bmInt_raised hs ht
  | hardReset => exact absurd ((getLsbD_putBit_ne _ _ _ _ (by decide) (by decide)).symm.trans ht) hsame
  | cartAddr =>
    have hclear : (putBit _ param.stBmInt false).getLsbD param.stBmInt = true := ht
    rw [getLsbD_putBit_self _ _ _ (by decide)] at hclear
    cases hclear
  | powerOn =>
    have hclear := (powerOnState_status_bit s (n := param.stBmInt) (by decide) (by decide)).symm.trans ht
    cases hclear
  | _ => exact absurd ht hsame

theorem Performs.bmInt_cleared (h : Performs i s t) (hs : s.bmInt = true) (ht : t.bmInt = false) :
    i = .powerOn ∨ (i = .rdCmdStatus ∧ 86 ≤ s.curSector.toNat) ∨
      (∃ a, i = .cartAddr a ∧ 0x05000000 ≤ a.toNat ∧ a.toNat ≤ 0x050004FF) ∨
      ∃ v, controlWordOf i = some v ∧ bmResets v s = true := by
  have hsame : s.bmInt ≠ false := by rw [hs]; decide
  cases h with
  | command _ heffect =>
    have hdone := (commandDone_status_bit _ (by decide)).symm.trans ht
    rw [heffect.status_bit (by decide) (by decide)] at hdone
    exact absurd hdone hsame
  | sequencer hseq => exact .inr ((hseq.bmInt_cleared hs ht).imp_right .inr)
  | hardReset => exact absurd ((getLsbD_putBit_ne _ _ _ _ (by decide) (by decide)).symm.trans ht) hsame
  | @cartAddr a _ _ hrange => exact .inr (.inr (.inl ⟨a, rfl, hrange⟩))
  | powerOn => exact .inl rfl
  | _ => exact absurd ht hsame

/-! The other bits. -/

/-- What one operation can make of a status bit that neither a step nor the refresh of `DISK_PRES` writes. -/
inductive BitAfter (i : Instr) (s : State) (n : Nat) (b : Bool) : Prop
  | kept (hb : b = s.cmdStatus.getLsbD n)
  | command {v : Word} {t : State} (hword : commandWordOf i = some v) (heffect : CommandEffect v s t)
    (hb : b = (commandDone t).cmdStatus.getLsbD n)
  | control {v : Word} (hword : controlWordOf i = some v) (hb : b = (controlledStatus v s).getLsbD n)
  | hardReset (hn : n = param.stRstState) (hb : b = true)
  | cartAddr (hn : n = param.stBmErr) (hb : b = false)
  | powerOn (hi : i = .powerOn) (hb : b = decide (n = param.stRstState))

theorem Performs.status_bit (h : Performs i s t) (hdata : n ≠ param.stDataRq) (hc2 : n ≠ param.stC2Xfer)
    (hint : n ≠ param.stBmInt) (hdisk : n ≠ param.stDiskPres) : BitAfter i s n (t.cmdStatus.getLsbD n) := by
  cases h with
  | command hword heffect => exact .command hword heffect rfl
  | sequencer hseq =>
    rcases hseq.status_bit hdata hc2 hint hdisk with hkept | ⟨v, hword, hcontrol⟩
    · exact .kept hkept
    · exact .control hword hcontrol
  | hardReset =>
    by_cases hn : n = param.stRstState
    · refine .hardReset hn ?_
      rw [hn]
      exact getLsbD_putBit_self _ _ _ (by decide)
    · exact .kept (getLsbD_putBit_ne _ _ _ _ (by decide) hn)
  | cartAddr _ _ hk =>
    by_cases hn : n = param.stBmErr
    · refine .cartAddr hn ((getLsbD_putBit_ne _ _ _ _ (by decide) hint).trans ?_)
      rw [hn]
      exact getLsbD_putBit_self _ _ _ (by decide)
    · exact .kept (cartAddr_status_bit s hk hint hn hc2 hdata)
  | powerOn =>
    refine .powerOn rfl ?_
    by_cases hn : n = param.stRstState
    · rw [decide_eq_true hn]
      refine (getLsbD_putBit_ne _ _ _ _ (by decide) hdisk).trans ?_
      rw [hn]
      exact getLsbD_putBit_self _ _ _ (by decide)
    · rw [decide_eq_false hn]
      exact powerOnState_status_bit s hn hdisk
  | _ => exact .kept rfl

/-- A control write sets no status bit. -/
theorem controlledStatus_sets_nothing {v : Word} (h : s.cmdStatus.getLsbD n = false) :
    (controlledStatus v s).getLsbD n = false := by
  rw [getLsbD_controlledStatus, h]
  rfl

/-- A control write keeps a bit that neither of its two resets clears. -/
theorem controlledStatus_keeps {v : Word} (hmecha : v.getLsbD param.bmcMechaRst = true → n ≠ param.stMechaInt)
    (hreset : n ∉ bmClearedBits) : (controlledStatus v s).getLsbD n = s.cmdStatus.getLsbD n := by
  rw [getLsbD_controlledStatus, decide_eq_false hreset, Bool.and_false, Bool.not_false, Bool.and_true]
  cases hv : v.getLsbD param.bmcMechaRst
  · simp
  · rw [decide_eq_false (hmecha hv)]
    simp

/-- Only a command or the hard-reset write sets one of these bits, and power-on `RST_STATE`. -/
theorem BitAfter.set_by {b : Bool} (h : BitAfter i s n b) (hs : s.cmdStatus.getLsbD n = false) (ht : b = true) :
    (∃ v u, commandWordOf i = some v ∧ CommandEffect v s u ∧ (commandDone u).cmdStatus.getLsbD n = true) ∨
      n = param.stRstState := by
  cases h with
  | kept hb => exact absurd (hb.symm.trans ht) (by rw [hs]; decide)
  | command hword heffect hb => exact .inl ⟨_, _, hword, heffect, hb.symm.trans ht⟩
  | control _ hb => exact absurd (hb.symm.trans ht) (by rw [controlledStatus_sets_nothing hs]; decide)
  | hardReset hn => exact .inr hn
  | cartAddr _ hb => exact absurd (hb.symm.trans ht) (by decide)
  | powerOn _ hb => exact .inr (of_decide_eq_true (hb.symm.trans ht))

theorem Performs.mechaInt_raised (h : Performs i s t) (hs : s.mechaInt = false) (ht : t.mechaInt = true) :
    ∃ v, commandWordOf i = some v := by
  have hbit := h.status_bit (n := param.stMechaInt) (by decide) (by decide) (by decide) (by decide)
  rcases hbit.set_by hs ht with ⟨v, _, hword, -⟩ | hn
  · exact ⟨v, hword⟩
  · exact absurd hn (by decide)

theorem Performs.mechaInt_cleared (h : Performs i s t) (hs : s.mechaInt = true) (ht : t.mechaInt = false) :
    i = .powerOn ∨ ∃ v, controlWordOf i = some v ∧ v.getLsbD param.bmcMechaRst = true := by
  have hchanged : s.mechaInt ≠ false := by rw [hs]; decide
  cases h.status_bit (n := param.stMechaInt) (by decide) (by decide) (by decide) (by decide) with
  | kept hb => exact absurd (hb.symm.trans ht) hchanged
  | command _ _ hb => exact absurd ((commandDone_mechaInt _).symm.trans (hb.symm.trans ht)) (by decide)
  | @control v hword hb =>
    refine .inr ⟨v, hword, Bool.eq_true_of_not_eq_false fun hmecha => hchanged ?_⟩
    exact (controlledStatus_keeps (fun hset => absurd (hmecha.symm.trans hset) (by decide)) (by decide)).symm.trans
      (hb.symm.trans ht)
  | hardReset hn | cartAddr hn => exact absurd hn (by decide)
  | powerOn hi => exact .inl hi

/-! `BM_ERR`, `DISK_CHNG` and `RST_STATE` (R320, D35, D40). -/

theorem Performs.bmErr_of_set (h : Performs i s t) (ht : t.bmErr = true) : s.bmErr = true := by
  refine Bool.eq_true_of_not_eq_false fun hs => ?_
  have hbit := h.status_bit (n := param.stBmErr) (by decide) (by decide) (by decide) (by decide)
  rcases hbit.set_by hs ht with ⟨v, u, -, heffect, hset⟩ | hn
  · rw [commandDone_status_bit u (by decide), heffect.status_bit (by decide) (by decide)] at hset
    exact absurd (hs.symm.trans hset) (by decide)
  · exact absurd hn (by decide)

theorem Performs.diskChng_of_set (h : Performs i s t) (ht : t.diskChng = true) : s.diskChng = true := by
  refine Bool.eq_true_of_not_eq_false fun hs => ?_
  have hbit := h.status_bit (n := param.stDiskChng) (by decide) (by decide) (by decide) (by decide)
  rcases hbit.set_by hs ht with ⟨v, u, -, heffect, hset⟩ | hn
  · rw [commandDone_status_bit u (by decide)] at hset
    rcases heffect.diskChng with hkept | ⟨hclear, -⟩
    · exact absurd (hs.symm.trans (hkept.symm.trans hset)) (by decide)
    · exact absurd (hclear.symm.trans hset) (by decide)
  · exact absurd hn (by decide)

theorem Performs.rstState_cleared (h : Performs i s t) (hs : s.rstState = true) (ht : t.rstState = false) :
    ∃ v, commandWordOf i = some v ∧ cmdOp v = param.opClrReset := by
  have hchanged : s.rstState ≠ false := by rw [hs]; decide
  cases h.status_bit (n := param.stRstState) (by decide) (by decide) (by decide) (by decide) with
  | kept hb => exact absurd (hb.symm.trans ht) hchanged
  | @command v u hword heffect hb =>
    refine ⟨v, hword, by_contra fun hop => hchanged ?_⟩
    rw [← heffect.rstState hop]
    exact (commandDone_status_bit u (by decide)).symm.trans (hb.symm.trans ht)
  | control _ hb =>
    exact absurd ((controlledStatus_keeps (fun _ => by decide) (by decide)).symm.trans (hb.symm.trans ht)) hchanged
  | hardReset _ hb => exact absurd (hb.symm.trans ht) (by decide)
  | cartAddr hn => exact absurd hn (by decide)
  | powerOn _ hb => exact absurd (hb.symm.trans ht) (by decide)

/-! The micro flag. -/

theorem Sequences.micro_cleared (h : Sequences i s t) (hs : s.micro = true) (ht : t.micro = false) :
    ∃ v, controlWordOf i = some v ∧ bmResets v s = true := by
  cases h with
  | @control _ v hword =>
    refine ⟨v, hword, Bool.eq_true_of_not_eq_false fun hreset => ?_⟩
    have hkept : (controlled v s).micro = true := by
      change (controlledFlags v s).getLsbD param.bmsMicro = true
      rw [controlledFlags, if_neg (Bool.eq_false_iff.mp hreset)]
      split
      · exact (getLsbD_putBit_ne _ _ _ _ (by decide) (by decide)).trans hs
      · exact hs
    cases hstart : v.getLsbD param.bmcStart
    · rw [controlResult_of_not_start s hstart, hkept] at ht
      cases ht
    · have hstarted : (started v (controlled v s)).micro = true :=
        (getLsbD_putBit_ne _ _ _ _ (by decide) (by decide)).trans hkept
      rw [controlResult_of_start s hstart, bmStep_micro _ hstarted] at ht
      cases ht
  | statusRead =>
    have hkept : (pollResume s.refreshDiskPres).micro = true := by
      rcases pollResume_cases s.refreshDiskPres with hidle | ⟨-, -, hresume⟩
      · rw [hidle]
        exact hs
      · rw [hresume]
        exact bmStep_micro _ hs
    exact absurd (hkept.symm.trans ht) (by decide)
  | step => exact absurd ((bmStep_micro s hs).symm.trans ht) (by decide)

theorem Performs.micro_cleared (h : Performs i s t) (hs : s.micro = true) (ht : t.micro = false) :
    i = .powerOn ∨ ∃ v, controlWordOf i = some v ∧ bmResets v s = true := by
  have hchanged : s.micro ≠ false := by rw [hs]; decide
  cases h with
  | command _ heffect =>
    have hkept : (commandDone _).bmStatusCtl = s.bmStatusCtl := (congrArg State.bmStatusCtl heffect.done_frame :)
    rw [State.micro, hkept] at ht
    exact absurd ht hchanged
  | sequencer hseq => exact .inr (hseq.micro_cleared hs ht)
  | powerOn => exact .inl rfl
  | _ => exact absurd ht hchanged

end

/-- Settles O58. -/
theorem interruptsHaveNamedCausesAndClears : Obligations.InterruptsHaveNamedCausesAndClears := fun _ _ _ hexec =>
  have h := performs_of_exec hexec
  ⟨h.bmInt_raised, h.mechaInt_raised, h.mechaInt_cleared, h.bmInt_cleared⟩

/-- Settles O59. -/
theorem stickyAndUnusedStatusBits : Obligations.StickyAndUnusedStatusBits := fun _ _ _ hexec =>
  have h := performs_of_exec hexec
  ⟨h.bmErr_of_set, h.diskChng_of_set, h.rstState_cleared, h.micro_cleared⟩

end Sys2Proof.Machine

namespace Sys2Proof.Machine

open Sys2Proof.Spec

/-! ## The collaborators (R291, R303, R330) -/

/-- The calls on the line lead from its level before to its level after. -/
def LineFollows (s t : State) : Prop :=
  ∃ calls, t.lineCalls = s.lineCalls ++ calls ∧ callsLead s.irqLine calls t.irqLine

theorem callsLead_append {a b c : Bool} {xs ys : List Bool} (h : callsLead a xs b) (h' : callsLead b ys c) :
    callsLead a (xs ++ ys) c := by
  induction xs generalizing a with
  | nil =>
    obtain rfl : a = b := h
    exact h'
  | cons x xs ih => exact ⟨h.1, ih h.2⟩

section
variable {i : Instr} {s t u : State}

/-- Without a call the line stays. -/
theorem LineFollows.of_kept (hline : t.irqLine = s.irqLine) (hcalls : t.lineCalls = s.lineCalls) : LineFollows s t :=
  ⟨[], by rw [hcalls, List.append_nil], hline.symm⟩

theorem LineFollows.trans (h : LineFollows s t) (h' : LineFollows t u) : LineFollows s u := by
  obtain ⟨xs, hxs, hlead⟩ := h
  obtain ⟨ys, hys, hlead'⟩ := h'
  exact ⟨xs ++ ys, by rw [hys, hxs, List.append_assoc], callsLead_append hlead hlead'⟩

/-- Driving the line makes a call exactly when the level changes. -/
theorem LineFollows.lineTo (level : Bool) (s : State) : LineFollows s (Spec.lineTo level s) := by
  by_cases h : level = s.irqLine
  · exact .of_kept h (if_pos h)
  · refine ⟨[level], if_neg h, ?_, rfl⟩
    cases level <;> cases hline : s.irqLine <;> simp_all

theorem LineFollows.lineTo_of_kept (level : Bool) (hline : t.irqLine = s.irqLine)
    (hcalls : t.lineCalls = s.lineCalls) : LineFollows s (Spec.lineTo level t) :=
  (LineFollows.of_kept hline hcalls).trans (.lineTo level t)

theorem LineFollows.bmStep (s : State) : LineFollows s (Machine.bmStep s) := by
  cases hrun : s.running
  · rw [bmStep_not_running s hrun]
    exact .of_kept rfl rfl
  · have hbranch : LineFollows s (stepBranch s) := by
      unfold stepBranch
      split
      · exact .of_kept (congrArg State.irqLine (writeBranch_eq s) :) (congrArg State.lineCalls (writeBranch_eq s) :)
      · exact .of_kept (congrArg State.irqLine (readBranch_eq s) :) (congrArg State.lineCalls (readBranch_eq s) :)
    rw [bmStep_of_running hrun]
    exact hbranch.trans (.lineTo true { stepBranch s with
      cmdStatus := putBit (stepBranch s).cmdStatus param.stBmInt true })

theorem Sequences.lineFollows (h : Sequences i s t) : LineFollows s t := by
  cases h with
  | @control _ v _ =>
    have hcontrolled : LineFollows s (controlled v s) := by
      unfold controlled
      exact .lineTo_of_kept _ rfl rfl
    cases hstart : v.getLsbD param.bmcStart
    · rwa [controlResult_of_not_start s hstart]
    · rw [controlResult_of_start s hstart]
      have hstarted : LineFollows (controlled v s) (started v (controlled v s)) := .of_kept rfl rfl
      exact (hcontrolled.trans hstarted).trans (.bmStep _)
  | statusRead =>
    have hresume : LineFollows s (pollResume s.refreshDiskPres) := by
      rcases pollResume_cases s.refreshDiskPres with hidle | ⟨-, -, hresume⟩
      · rw [hidle]
        exact .of_kept rfl rfl
      · rw [hresume]
        have hacknowledged : LineFollows s (bmAcknowledged s.refreshDiskPres) := by
          unfold bmAcknowledged
          exact .lineTo_of_kept _ rfl rfl
        exact hacknowledged.trans (.bmStep _)
    exact hresume.trans (.of_kept rfl rfl)
  | step => exact .bmStep s

theorem Performs.lineFollows (h : Performs i s t) : LineFollows s t := by
  cases h with
  | command _ heffect =>
    rw [commandDone]
    exact .lineTo_of_kept _ (congrArg State.irqLine heffect.frame :) (congrArg State.lineCalls heffect.frame :)
  | sequencer hseq => exact hseq.lineFollows
  | cartAddr =>
    unfold bmAcknowledged
    exact .lineTo_of_kept _ rfl rfl
  | powerOn =>
    rw [updateIrqLine_eq]
    exact .lineTo_of_kept _ rfl rfl
  | _ => exact .of_kept rfl rfl

/-- An operation of the sequencer is no transfer. -/
theorem Sequences.codeInvalidated (h : Sequences i s t) (romSize : Nat) : codeInvalidated romSize i = [] := by
  cases h with
  | @control i v hword =>
    cases i with
    | dmaToHost => cases hword
    | _ => rfl
  | statusRead | step => rfl

theorem codeInvalidated_of_command {v : Word} (h : commandWordOf i = some v) (romSize : Nat) :
    codeInvalidated romSize i = [] := by
  cases i with
  | dmaToHost => cases h
  | _ => rfl

theorem Performs.invalidations (h : Performs i s t) :
    t.invalidations = s.invalidations ++ codeInvalidated s.rom.size i := by
  have hnone : codeInvalidated s.rom.size i = [] → t.invalidations = s.invalidations →
      t.invalidations = s.invalidations ++ codeInvalidated s.rom.size i := fun hcode hkept => by
    rw [hcode, hkept, List.append_nil]
  cases h with
  | command hword heffect =>
    exact hnone (codeInvalidated_of_command hword _) (congrArg State.invalidations heffect.done_frame :)
  | sequencer hseq => exact hnone (hseq.codeInvalidated _) (congrArg State.invalidations hseq.frame :)
  | access hquiet => exact hnone hquiet rfl
  | dmaToHost dram n hrange => exact congrArg (s.invalidations ++ ·) (if_neg hrange).symm
  | _ => exact hnone rfl rfl

end

/-- Settles O57. -/
theorem collaboratorCallsFollowTheLine : Obligations.CollaboratorCallsFollowTheLine := fun i s => by
  obtain ⟨t, hexec, h⟩ := exists_performs s i
  exact ⟨t, hexec, h.lineFollows, h.invalidations⟩

end Sys2Proof.Machine

namespace Sys2Proof.Machine

open Sys2Proof.Spec

/-! ## The byte-count registers configure nothing (R28, R29, R374)

Every operation but the named ones commutes with other contents of the two registers; so does each of its pieces. -/

/-- The state with other contents in the two byte-count registers. -/
def withByteCounts (v w : Word) (s : State) : State := { s with hostSecbyte := v, secByte := w }

/-- A piece of an operation neither reads nor writes the two registers. -/
def IgnoresByteCounts (f : State → State) : Prop := ∀ v w s, f (withByteCounts v w s) = withByteCounts v w (f s)

/-- An operation completes, neither reading nor writing the two registers. -/
def RunIgnoresByteCounts (run : State → Host.Outcome State Fault Refusal) : Prop :=
  ∀ v w s, ∃ t, run s = .next t ∧ run (withByteCounts v w s) = .next (withByteCounts v w t)

theorem IgnoresByteCounts.run {f : State → State} (h : IgnoresByteCounts f) :
    RunIgnoresByteCounts fun s => .next (f s) := fun v w s => ⟨f s, rfl, congrArg Host.Outcome.next (h v w s)⟩

/-- An operation that does the same whatever the registers hold keeps what they hold. -/
theorem RunIgnoresByteCounts.keeps {run : State → Host.Outcome State Fault Refusal} (h : RunIgnoresByteCounts run)
    {s t : State} (hrun : run s = .next t) : t.hostSecbyte = s.hostSecbyte ∧ t.secByte = s.secByte := by
  obtain ⟨u, hu, hsame⟩ := h s.hostSecbyte s.secByte s
  obtain rfl : t = u := Host.Outcome.next.inj (hrun.symm.trans hu)
  have hself : t = withByteCounts s.hostSecbyte s.secByte t := Host.Outcome.next.inj (hrun.symm.trans hsame)
  rw [hself]
  exact ⟨rfl, rfl⟩

/-! The sequencer. -/

theorem seek_withByteCounts (v w : Word) (s : State) :
    seek (withByteCounts v w s) = (withByteCounts v w (seek s).1, (seek s).2) := by
  cases hd : s.disk with
  | none =>
    rw [seek_of_none s hd, seek_of_none (withByteCounts v w s) hd]
    rfl
  | some d =>
    rw [seek_of_disk s hd, seek_of_disk (withByteCounts v w s) hd]
    change applySeek (withByteCounts v w s) d s.effectiveSector
      (resolve d s.lbaPhysTable s.curTk s.blockNum s.effectiveSector) = _
    cases resolve d s.lbaPhysTable s.curTk s.blockNum s.effectiveSector <;> rfl

/-- A data slot reaches its sector or it does not (R373). -/
theorem sectorReached_or_fails (s : State) (failed : Bool) :
    (∃ d, s.disk = some d ∧ failed = false ∧ s.sectorInImage d = true) ∨
      (s.disk = none ∨ failed = true ∨ ∃ d, s.disk = some d ∧ s.sectorInImage d = false) := by
  cases hd : s.disk with
  | none => exact .inr (.inl rfl)
  | some d => cases hin : s.sectorInImage d <;> cases failed <;> simp [hin]

theorem sectorRead_ignoresByteCounts (failed : Bool) : IgnoresByteCounts (sectorRead · failed) := by
  intro v w s
  dsimp only
  rcases sectorReached_or_fails s failed with ⟨d, hd, rfl, hin⟩ | hfail
  · rw [sectorRead_of_inImage s d hd hin, sectorRead_of_inImage (withByteCounts v w s) d hd hin]
    rfl
  · rw [sectorRead_of_fail s failed hfail, sectorRead_of_fail (withByteCounts v w s) failed hfail]
    rfl

theorem sectorWrite_ignoresByteCounts (failed : Bool) : IgnoresByteCounts (sectorWrite · failed) := by
  intro v w s
  dsimp only
  rcases sectorReached_or_fails s failed with ⟨d, hd, rfl, hin⟩ | hfail
  · rw [sectorWrite_of_inImage s d hd hin, sectorWrite_of_inImage (withByteCounts v w s) d hd hin]
    rfl
  · rw [sectorWrite_of_fail s failed hfail, sectorWrite_of_fail (withByteCounts v w s) failed hfail]
    rfl

theorem seekAndRead_ignoresByteCounts : IgnoresByteCounts seekAndRead := fun v w s => by
  rw [seekAndRead, seek_withByteCounts, seekAndRead]
  exact sectorRead_ignoresByteCounts _ v w _

theorem seekAndWrite_ignoresByteCounts : IgnoresByteCounts seekAndWrite := fun v w s => by
  rw [seekAndWrite, seek_withByteCounts, seekAndWrite]
  exact sectorWrite_ignoresByteCounts _ v w _

theorem writeBranch_ignoresByteCounts : IgnoresByteCounts writeBranch := fun v w s => by
  have hsector : (withByteCounts v w s).curSector = s.curSector := rfl
  have hcont : (withByteCounts v w s).continueBlock = s.continueBlock := rfl
  simp only [writeBranch, seekAndWrite_ignoresByteCounts v w s, hsector, hcont]
  split_ifs <;> rfl

theorem readBranch_ignoresByteCounts : IgnoresByteCounts readBranch := fun v w s => by
  have hquirk : quirk (withByteCounts v w s) = quirk s := rfl
  have hsector : (withByteCounts v w s).curSector = s.curSector := rfl
  have hcont : (withByteCounts v w s).continueBlock = s.continueBlock := rfl
  have hc2 : (withByteCounts v w s).c2Buf = s.c2Buf := rfl
  simp only [readBranch, seekAndRead_ignoresByteCounts v w s, hquirk, hsector, hcont, hc2]
  generalize zeroFillC2 s.c2Buf (s.curSector.toNat - Config.sectorsPerBlock) = filled
  split_ifs <;> rfl

theorem bmStep_ignoresByteCounts : IgnoresByteCounts bmStep := fun v w s => by
  have hrun : (withByteCounts v w s).running = s.running := rfl
  have hdir : (withByteCounts v w s).bmWrite = s.bmWrite := rfl
  simp only [bmStep, hrun, hdir, writeBranch_ignoresByteCounts v w s, readBranch_ignoresByteCounts v w s]
  split_ifs <;> rfl

theorem controlResult_ignoresByteCounts (word : Word) : IgnoresByteCounts (controlResult word) := fun v w s => by
  cases hstart : word.getLsbD param.bmcStart
  · rw [controlResult_of_not_start _ hstart, controlResult_of_not_start _ hstart]
    rfl
  · rw [controlResult_of_start _ hstart, controlResult_of_start _ hstart, ← bmStep_ignoresByteCounts]
    rfl

theorem pollResume_ignoresByteCounts : IgnoresByteCounts pollResume := fun v w s => by
  have hacknowledged : (withByteCounts v w s).clrIrq .bm = withByteCounts v w (s.clrIrq .bm) := rfl
  have hint : (withByteCounts v w s).bmInt = s.bmInt := rfl
  have hsector : (withByteCounts v w s).curSector = s.curSector := rfl
  simp only [pollResume, hint, hsector, hacknowledged, bmStep_ignoresByteCounts v w (s.clrIrq .bm)]
  split_ifs <;> rfl

/-! The commands and the transfers. -/

/-- Each command works on fields beside the two registers. -/
theorem wrCmdStatus_ignoresByteCounts (word : Word) : RunIgnoresByteCounts (exec (.wrCmdStatus word)) := by
  intro v w s
  change ∃ t, execWrCmdStatus word s = _ ∧ execWrCmdStatus word _ = _
  unfold execWrCmdStatus
  dsimp only
  split_ifs <;> exact ⟨_, rfl, rfl⟩

theorem control_ignoresByteCounts {i : Instr} {word : Word} (h : controlWordOf i = some word) :
    RunIgnoresByteCounts (exec i) := fun v w s =>
  ⟨_, exec_control s h, by rw [exec_control _ h, controlResult_ignoresByteCounts]⟩

theorem cartAddr_ignoresByteCounts (cart : Word) : RunIgnoresByteCounts (exec (.cartAddr cart)) := by
  intro v w s
  rw [cartAddressClearsItsBuffer, cartAddressClearsItsBuffer]
  split_ifs <;> exact ⟨_, rfl, rfl⟩

theorem dmaToHost_ignoresByteCounts (cart : Word) (dram length : Nat) :
    RunIgnoresByteCounts (exec (.dmaToHost cart dram length)) := by
  intro v w s
  cases h : dmaRange s.rom.size cart with
  | c2 => exact ⟨_, exec_dmaToHost_c2 _ _ h, exec_dmaToHost_c2 _ _ h⟩
  | ds => exact ⟨_, exec_dmaToHost_ds _ _ h, exec_dmaToHost_ds _ _ h⟩
  | rom => exact ⟨_, exec_dmaToHost_rom _ _ h, exec_dmaToHost_rom _ _ h⟩
  | nothing => exact ⟨_, exec_dmaToHost_nothing _ _ h, exec_dmaToHost_nothing _ _ h⟩

theorem dmaFromHost_ignoresByteCounts (cart : Word) (dram length : Nat) :
    RunIgnoresByteCounts (exec (.dmaFromHost cart dram length)) := by
  intro v w s
  cases h : dmaRange s.rom.size cart with
  | c2 => exact ⟨_, exec_dmaFromHost_c2 _ _ h, exec_dmaFromHost_c2 _ _ h⟩
  | ds => exact ⟨_, exec_dmaFromHost_ds _ _ h, exec_dmaFromHost_ds _ _ h⟩
  | rom => exact ⟨_, exec_dmaFromHost_rom _ _ h, exec_dmaFromHost_rom _ _ h⟩
  | nothing => exact ⟨_, exec_dmaFromHost_nothing _ _ h, exec_dmaFromHost_nothing _ _ h⟩

/-- What the statement quantifies over, all but five operations. -/
theorem exec_ignoresByteCounts {i : Instr} (hrdHost : i ≠ .rdHostSecbyte) (hrdSec : i ≠ .rdSecByte)
    (hwrHost : ∀ x, i ≠ .wrHostSecbyte x) (hwrSec : ∀ x, i ≠ .wrSecByte x) (hpower : i ≠ .powerOn) :
    RunIgnoresByteCounts (exec i) := by
  cases i with
  | rdHostSecbyte => exact absurd rfl hrdHost
  | rdSecByte => exact absurd rfl hrdSec
  | wrHostSecbyte x => exact absurd rfl (hwrHost x)
  | wrSecByte x => exact absurd rfl (hwrSec x)
  | powerOn => exact absurd rfl hpower
  | wrCmdStatus word => exact wrCmdStatus_ignoresByteCounts word
  | wrBmStatusCtl | bmctlSector00 | bmctlSector5A | bmctlSectorOther | bmctlMechaRst | bmctlBlkTrans | bmctlReset
  | bmctlResetRelease | bmctlStart => exact control_ignoresByteCounts rfl
  | rdCmdStatus => exact fun v w s => ⟨_, exec_rdCmdStatus s, by
      have hrefresh : (withByteCounts v w s).refreshDiskPres = withByteCounts v w s.refreshDiskPres := rfl
      rw [exec_rdCmdStatus, hrefresh, pollResume_ignoresByteCounts]
      rfl⟩
  | step => exact bmStep_ignoresByteCounts.run
  | cartAddr cart => exact cartAddr_ignoresByteCounts cart
  | dmaToHost cart dram length => exact dmaToHost_ignoresByteCounts cart dram length
  | dmaFromHost cart dram length => exact dmaFromHost_ignoresByteCounts cart dram length
  | _ => exact fun _ _ _ => ⟨_, rfl, rfl⟩

/-- Settles O22: each operation but the five commutes with other contents of the two registers. -/
theorem byteCountsConfigureNothing : Obligations.ByteCountsConfigureNothing := by
  intro i s v w hrdHost hrdSec hwrHost hwrSec hpower
  have hignores := exec_ignoresByteCounts hrdHost hrdSec hwrHost hwrSec hpower
  obtain ⟨t, ht, hother⟩ := hignores v w s
  obtain ⟨hhost, hsec⟩ := hignores.keeps ht
  exact ⟨t, ht, hhost, hsec, hother⟩

end Sys2Proof.Machine
